-- ==== Sys2Proof/Word.lean ====
section
/-! DEFINITION. The word type of the host port and the plain records that commands carry as operands: what an
outside event brings with it (a measured code, a received frame, the contents of the attached flash). -/

namespace Sys2Proof

/-- A register of the host window (R4). -/
abbrev Word := BitVec 32

/-- A byte of a flash, ring or journal stream. -/
abbrev Byte := BitVec 8

/-- A 128-bit word of an engine memory (Table 6-2). -/
abbrev MWord := BitVec 128

/-- One row of a register block, 1,152 bits (R168). -/
abbrev BRow := BitVec 1152

/-- A bit range of a register of the host window: the word at byte offset `base` (element `i` of an array lies
at `base + 4 i`), bits `hi` down to `lo`. -/
structure Fld where
  base : Nat
  hi   : Nat
  lo   : Nat
  deriving DecidableEq, Repr

/-- A memory error met by a read: the word number, and whether it is uncorrectable (R170). -/
structure EccHit where
  word : Nat
  ue   : Bool
  deriving DecidableEq, Repr

/-- Operands of a memory-format engine instruction (format M of Table 6-3): block, scalar register of the
address, row mask and address offset. -/
structure MOp where
  bd  : Nat
  sb  : Nat
  rm  : Nat
  ofs : Nat
  deriving DecidableEq, Repr

/-- Operands of an array-format engine instruction (format X of Table 6-3). -/
structure XOp where
  ba   : Nat
  ac   : Nat
  km1  : Nat
  mtm1 : Nat
  ngm1 : Nat
  sb   : Nat
  sh   : Nat
  am   : Bool
  deriving DecidableEq, Repr

/-- Operands of a row-format engine instruction (format R of Table 6-3). -/
structure ROp where
  bd : Nat
  ba : Nat
  bb : Nat
  ty : Nat
  fn : Nat
  deriving DecidableEq, Repr

/-- What a stage returns for one switching period: its 10-bit current code and the status bits of Table 3-4. -/
structure PhaseResult where
  p    : Nat
  code : Nat
  fl   : Bool
  zc   : Bool
  ot   : Bool
  sack : Bool
  deriving DecidableEq, Repr

/-- One converter's conversions of a calibration point: their mean in 1/16 code, and their spread in codes (R364,
R365). -/
structure CalMean where
  conv : Nat
  mean : Nat
  spread : Nat
  deriving DecidableEq, Repr

/-- The ring-oscillator counts of one temperature sensor over one sample (R299). -/
structure RingCount where
  ns : Nat
  nr : Nat
  deriving DecidableEq, Repr

/-- An upset bit of FLT_CFG[source] (R382). -/
structure BitUpset where
  source : Nat
  bit    : Nat
  deriving DecidableEq, Repr

/-- A run of bytes of the attached flash, at a byte address. Bytes in no run read as erased (0xFF). -/
structure FlashSeg where
  base  : Nat
  bytes : List Byte
  deriving DecidableEq, Repr

/-- What the attached flash holds when a load starts: its runs of bytes, whether its SFDP tables have their signature and
declare the clock required, and its size in bytes (R408, R409). -/
structure Flash where
  segs    : List FlashSeg
  sfdpOk  : Bool
  density : Nat
  deriving DecidableEq, Repr

/-- What one PMBus device answers while the start list runs (R433). -/
structure PmbAnswer where
  dev       : Nat
  acks      : Bool
  revision  : Nat
  voutMode  : Nat
  deriving DecidableEq, Repr

/-- What one PMBus device answers to a poll (R434). -/
structure PmbPollAnswer where
  dev    : Nat
  acks   : Bool
  status : Nat
  vout   : Nat
  iout   : Nat
  deriving DecidableEq, Repr

/-- A Hoop frame (R450): TYPE, SRC, SEQ, ARG and the 12 payload bytes. -/
structure Frame where
  ty      : Nat
  src     : Nat
  seq     : Nat
  arg     : Nat
  payload : List Byte
  deriving DecidableEq, Repr

/-- A symbol of a ring lane (Table 15-1): a control or a data symbol by its byte, or a code or disparity error. The ten-bit codes of
8b/10b are outside the model (log 50). -/
inductive Symbol where
  | k (b : Byte)
  | d (b : Byte)
  | err
  deriving DecidableEq, Repr

/-- A word of an engine memory named by memory number and word number. -/
structure MemWord where
  mem  : Nat
  word : Nat
  deriving DecidableEq, Repr

/-- One record of the fault log (R390). -/
structure FltRec where
  src : Nat
  index : Nat
  timeUs : Nat
  tickLo : Nat
  deriving DecidableEq, Repr

/-- One entry of the wear log (R397): kind 0 a phase retired or a spare mapped to a position, 1 a temperature sensor's
mark or stand-in, 2 a region converter's stand-in, 3 an array failure, 4 a memory row remapped; the physical element;
and the logical element it serves from then on, none when it is taken out of service. -/
structure WearRec where
  kind : Nat
  elem : Nat
  serves : Option Nat := none
  /-- State code of a mark, or frozen offset of a stand-in. -/
  val : Nat := 0
  deriving DecidableEq, Repr

/-- What entered a record's snapshot (Table 16-7): a hint, a ring frame, a droop episode, an activity frame with the body
coded as there, a host write; cycles are engine cycles after the previous boundary. -/
inductive TrcEvent where
  | hint (cycle : Nat) (word : BitVec 64)
  | ring (lane cycle : Nat) (frame : Frame)
  | droop (region start stop window : Nat)
  | act (mode : Nat) (body : List Byte)
  | hostw (cycle addr : Nat) (data : Word)
  deriving DecidableEq, Repr

/-- A flash operation of a journal commit (R408, R428): the erase of a 64 KiB sector, or the program of a page. -/
inductive FlashOp where
  | erase (addr : Nat)
  | program (addr : Nat) (data : List Byte)
  deriving DecidableEq, Repr

/-- A write of the PMBus start list (R433): device index, command, its data bytes and their count. -/
structure PmbWrite where
  dev  : Nat
  cmd  : Nat
  size : Nat
  data : Nat
  deriving DecidableEq, Repr

end Sys2Proof
end

