-- ==== Sys2Proof/Machine/Crypto.lean ====
section
/-! DEFINITION. Little-endian fields of byte lists, the CRC-32 of the image and the journal, and SHA-256 (R410, R411). -/

namespace Sys2Proof.Machine

/-- The number a list of bytes spells, lowest byte first (R410). -/
def leNat : List Byte → Nat
  | [] => 0
  | x :: r => x.toNat + 256 * leNat r

/-- The `n` bytes at an offset of a list, and the number they spell. -/
def bytesAt (bs : List Byte) (off n : Nat) : List Byte := (bs.drop off).take n
def leAt (bs : List Byte) (off n : Nat) : Nat := leNat (bytesAt bs off n)

/-- A number as `n` bytes, lowest first. -/
def leBytes : Nat → Nat → List Byte
  | 0, _ => []
  | n + 1, v => BitVec.ofNat 8 v :: leBytes n (v / 256)

/-- A list cut into pieces of `k`, at most `fuel` of them. -/
def pieces {α : Type} (k : Nat) : Nat → List α → List (List α)
  | 0, _ => []
  | fuel + 1, l => if l.isEmpty then [] else l.take k :: pieces k fuel (l.drop k)

/-- A list cut into pieces of `k > 0`. -/
def chunks {α : Type} (k : Nat) (l : List α) : List (List α) := pieces k l.length l

/-- The numbers of a list of bytes, `k` bytes each. -/
def leWords (k : Nat) (bs : List Byte) : List Nat := (chunks k bs).map leNat

/-- One bit of the reflected CRC-32 register. -/
def crcBit (c : BitVec 32) : BitVec 32 := if c.getLsbD 0 then (c >>> 1) ^^^ 0xEDB88320 else c >>> 1

/-- The register after a byte. -/
def crcByte (c : BitVec 32) (x : Byte) : BitVec 32 :=
  let c := c ^^^ x.setWidth 32
  crcBit (crcBit (crcBit (crcBit (crcBit (crcBit (crcBit (crcBit c)))))))

/-- CRC-32: polynomial 0x04C11DB7 reflected, initial value and final exclusive-or 0xFFFFFFFF (R411). -/
def crc32 (bs : List Byte) : BitVec 32 := (bs.foldl crcByte 0xFFFFFFFF) ^^^ 0xFFFFFFFF

/-! SHA-256 (FIPS 180-4). -/

/-- The `n` words of 32 bits that a number spells, the first in its highest bits. -/
def spelt (n v : Nat) : List (BitVec 32) := (List.range n).map (fun i => BitVec.ofNat 32 (v >>> (32 * (n - 1 - i))))

/-- The round constants: the first 32 bits of the fractional parts of the cube roots of the first 64 primes, in eight rows. -/
def shaK : List (BitVec 32) :=
  spelt 8 0x428a2f9871374491b5c0fbcfe9b5dba53956c25b59f111f1923f82a4ab1c5ed5 ++
  spelt 8 0xd807aa9812835b01243185be550c7dc372be5d7480deb1fe9bdc06a7c19bf174 ++
  spelt 8 0xe49b69c1efbe47860fc19dc6240ca1cc2de92c6f4a7484aa5cb0a9dc76f988da ++
  spelt 8 0x983e5152a831c66db00327c8bf597fc7c6e00bf3d5a7914706ca635114292967 ++
  spelt 8 0x27b70a852e1b21384d2c6dfc53380d13650a7354766a0abb81c2c92e92722c85 ++
  spelt 8 0xa2bfe8a1a81a664bc24b8b70c76c51a3d192e819d6990624f40e3585106aa070 ++
  spelt 8 0x19a4c1161e376c082748774c34b0bcb5391c0cb34ed8aa4a5b9cca4f682e6ff3 ++
  spelt 8 0x748f82ee78a5636f84c878148cc7020890befffaa4506cebbef9a3f7c67178f2

/-- The initial hash value: those of the square roots of the first eight primes. -/
def shaInit : List (BitVec 32) :=
  spelt 8 0x6a09e667bb67ae853c6ef372a54ff53a510e527f9b05688c1f83d9ab5be0cd19

/-- Rotation right. -/
def rotr (k : Nat) (x : BitVec 32) : BitVec 32 := (x >>> k) ||| (x <<< (32 - k))

/-- The exclusive-or of a word's rotations. -/
def mixed (ks : List Nat) (x : BitVec 32) : BitVec 32 := ks.foldl (fun a k => a ^^^ rotr k x) 0

/-- The next word of the message schedule, from the last 16, newest first. -/
def shaNext (w : List (BitVec 32)) : BitVec 32 :=
  let old := w.getD 14 0
  let late := w.getD 1 0
  [mixed [17, 19] late ^^^ (late >>> 10), mixed [7, 18] old ^^^ (old >>> 3), w.getD 6 0, w.getD 15 0].sum

/-- The message schedule of a block, newest word first. -/
def shaSchedule (m : List (BitVec 32)) : List (BitVec 32) :=
  (List.range 48).foldl (fun w _ => shaNext w :: w) m.reverse

/-- One round, on the working variables a..h with the round's constant and word. -/
def shaRound (v : List (BitVec 32)) (kw : BitVec 32 × BitVec 32) : List (BitVec 32) :=
  match v with
  | [a, b, c, d, e, f, g, h] =>
    let chosen := g ^^^ (e &&& (f ^^^ g))
    let most := (a &&& b) ||| (c &&& (a ||| b))
    let step := [h, mixed [6, 11, 25] e, chosen, kw.1, kw.2].sum
    [step + mixed [2, 13, 22] a + most, a, b, c, d + step, e, f, g]
  | l => l

/-- A big-endian word of four bytes. -/
def beWord (bs : List Byte) : BitVec 32 := bs.foldl (fun a x => (a <<< 8) ||| x.setWidth 32) 0

/-- The hash value after a block of 64 bytes. -/
def shaBlock (h : List (BitVec 32)) (blk : List Byte) : List (BitVec 32) :=
  let w := (shaSchedule ((chunks 4 blk).map beWord)).reverse
  let v := (shaK.zip w).foldl shaRound h
  List.zipWith (· + ·) h v

/-- The padding of a message of `n` bytes. -/
def shaPad (n : Nat) : List Byte :=
  0x80 :: List.replicate ((119 - n % 64) % 64) 0 ++ (leBytes 8 (8 * n)).reverse

/-- SHA-256 of a message, 32 bytes. -/
def sha256 (bs : List Byte) : List Byte :=
  let h := (chunks 64 (bs ++ shaPad bs.length)).foldl shaBlock shaInit
  h.flatMap (fun w => (leBytes 4 w.toNat).reverse)

end Sys2Proof.Machine
end

