-- ==== Sys2Proof/Config.lean ====
section
/-! DEFINITION. What an implementation fixes once (fused values, build parameters), and the free values: constants
without a body, which stand for what the spec leaves open. Nothing in Lean can evaluate them, so a claim holds for
every value they may have. -/

namespace Sys2Proof.Config

/-- CFG_CHIPID, fused (R437). DESIGN CHOICE, log 11. -/
opaque chipId : BitVec 64

/-- TRUST_REQ, a build parameter (R417). DESIGN CHOICE, log 11. -/
opaque trustReq : Bool

/-- IMG_CTL.SAFE_VCODE, fused (R439). DESIGN CHOICE, log 11. -/
opaque safeVcode : BitVec 12

/-- CLK_XCFG.XA_10K, a build parameter (R347). DESIGN CHOICE, log 11. -/
opaque xa10k : BitVec 16

/-- The IDCODE of the test access port, whose manufacturer field is a build parameter (R61). DESIGN CHOICE, log 11. -/
opaque idcode : BitVec 32

/-- A free 32-bit value, one for each count of `State.freeCtr`: what a register or a result holds where the spec
calls it unpredictable or leaves it open. DESIGN CHOICE, log 8. -/
opaque freeWord : Nat → Word

/-- The free values of a draw that takes many at once, by the count of `State.freeCtr` and an index. DESIGN CHOICE, log 8. -/
opaque freeAt : Nat → Nat → BitVec 128

/-- A free bit for a rounding the spec does not state: the site of the rounding and the exact value's numerator
and denominator decide it. DESIGN CHOICE, log 9. -/
opaque roundUp : Nat → Int → Nat → Bool

/-- The share of a lost phase in fine steps, from its duty and the number of phases left; it is held within 1 and that duty
(R82). DESIGN CHOICE, log 10. -/
opaque lossShare : Nat → Nat → Nat

/-- The ripple between the sample point and the period average of a phase current, 1/131072 A, which the weave loop
predicts from the trigger's event and delay, the duty, VIN and the output voltage (R78, R516). DESIGN CHOICE, log 10. -/
opaque ripple : Nat → Nat → Nat → Nat → Nat → Int

/-- The period-average current taken for a period without a result, from the last one (R69, R78). DESIGN CHOICE, log 10. -/
opaque missedAverage : Int → Int

/-- The code that users of a phase current converter receive before its first result against a settled reference, by position
(R354). DESIGN CHOICE, log 10. -/
opaque unsettledCode : Nat → Nat

/-- The feed-forward duty while no VIN reading has been taken, from the reference (R104). DESIGN CHOICE, log 10. -/
opaque dffNoVin : Nat → Int

/-- The duty to which the slow limit lowers a phase, from its duty, average and limit; and the raise given to a phase
below its limit (R78). DESIGN CHOICE, log 10. -/
opaque slowDuty : Nat → Int → Int → Nat
opaque slowShift : Nat → Int → Int → Nat

/-- The on-time of a period in which droop pulses meet the loop's on-time, in fine steps, and the separate on-times that they
form, from the loop's on-time, the width of a pulse and the pulses: the first lies between the longest request and their sum
(R66, R268). DESIGN CHOICE, log 10. -/
opaque pulseOnTime : Nat → Nat → Nat → Nat
opaque onTimes : Nat → Nat → Nat → Nat

/-- What is left of an on-time, in fine steps, that the fast limit or the end of the phase's drive cuts short within its period
(R15, R76, R80). DESIGN CHOICE, log 10. -/
opaque cutOnTime : Nat → Nat

/-- Whether a region's total check fails where the observer's inductor-current state is no number, from the sum of the sensed
currents (R83). DESIGN CHOICE, log 28. -/
opaque totalOpen : Int → Bool

/-- What a 64-bit root cuts off 2 raised to a fraction, given as numerator and denominator, in 2^−64, held within 0 and 1
(R267). DESIGN CHOICE, log 10. -/
opaque pow2rest : Nat → Nat → Rat

/-- The nominal codes of a temperature sensor at 25 °C and 105 °C, fixed in the block (R301). DESIGN CHOICE, log 11. -/
opaque nominalCode : Nat → Nat × Nat

/-- The codes of a sensor at −55 °C and 165 °C, fused at test (R304). DESIGN CHOICE, log 11. -/
opaque bandCode : Nat → Nat × Nat

/-- The trip code of a sensor, fused at test (R316). DESIGN CHOICE, log 11. -/
opaque tripCode : Nat → Nat

/-- A sensor's filtered difference from its neighbours as recorded at test, 1/1024 of 0.25 °C (R305). DESIGN CHOICE, log 11. -/
opaque driftAtTest : Nat → Int

/-- The gain of the first-order filters of R88 by their time constant in samples, held within the gains of their discrete forms.
DESIGN CHOICE, log 12. -/
opaque filterGain : Nat → Rat

/-- The value of a filter whose order the spec does not state, from its constant in samples, its value before and its input
(R305, R306). DESIGN CHOICE, log 12. -/
opaque filtered : Nat → Int → Int → Int

/-- The code of a sample whose ratio has no 16-bit value, from the two counts (R299). DESIGN CHOICE, log 12. -/
opaque codeOpen : Nat → Nat → Nat

/-- The reading of a code under equal calibration codes (R300). DESIGN CHOICE, log 12. -/
opaque readingOpen : Nat → Nat → Int

/-- The zero code and R_path (1/16 mΩ) of a position in force while no calibration section is used, of which R301 and R366 say
nothing. DESIGN CHOICE, log 46. -/
opaque nominalPhase : Nat → Nat × Nat

/-- Whether a host write of VOUT_COMMAND passes the limits of R435 for a device whose VOUT_MODE is not known, by its address
and data. DESIGN CHOICE, log 14. -/
opaque voutUnknown : Nat → Nat → Bool

/-- Which of its two results VMINI leaves where BB and BD are the same block: FN where this holds, and BA otherwise.
DESIGN CHOICE, log 13. -/
opaque vminiIndexLast : Bool

/-! The bytes of the journal's logs and calibration results, and of the PMBus table of the limits section, which the spec does
not lay out (R390, R397, R426, R433). -/

/-- The mask of byte `i` of the journaled data of kind `k`. DESIGN CHOICE, log 14. -/
opaque journalMask : Nat → Nat → Byte

/-- The PMBus table as bus speed (1 MHz when true), device addresses and start list; none where the bytes have not the
length that the table's counts give. DESIGN CHOICE, log 14. -/
opaque pmbTable : List Byte → Option (Bool × List Nat × List PmbWrite)

/-- Source and instance in the record of a BRESET write that is logged and not started, which the spec does not give (R384). Log 79. -/
opaque bresetLog : BitVec 7 × BitVec 11

end Sys2Proof.Config
end

