-- ==== Sys2Proof/Machine/Regs.lean ====
section
/-! DEFINITION. The host register window (R4, R494, R495): every register of the Register Index with its
address, the bit range of every field its chapter's register map gives, the access code of each field, and its
reset word. The field tables were laid out from the register maps of chapters 2 to 16. -/

namespace Sys2Proof.Machine

/-- A register array of the window: `count` words at a stride of 4 from `base`, with the bits of each access
code of Table 0-6, and the reset word of element `i` (R495). Bits in no mask are reserved (R6). -/
structure RegDef where
  base  : Nat
  count : Nat
  ro    : Word
  rw    : Word
  w1c   : Word
  rws   : Word
  wo    : Word
  reset : Nat → Word

/-- Exclusive-or of the bits of a word, the parity of R496. -/
def parity (w : Word) : Bool :=
  (List.range 32).foldl (fun p i => p ^^ w.getLsbD i) false

/-- CFG_ID.BLOCK: bits [31:16], RO. -/
abbrev CFG_ID_BLOCK : Fld := ⟨0x0, 31, 16⟩
/-- CFG_ID.MAJOR: bits [15:8], RO. -/
abbrev CFG_ID_MAJOR : Fld := ⟨0x0, 15, 8⟩
/-- CFG_ID.MINOR: bits [7:0], RO. -/
abbrev CFG_ID_MINOR : Fld := ⟨0x0, 7, 0⟩
/-- CFG_CHIPID_LO.ID_LO: bits [31:0], RO. -/
abbrev CFG_CHIPID_LO_ID_LO : Fld := ⟨0x4, 31, 0⟩
/-- CFG_CHIPID_HI.ID_HI: bits [31:0], RO. -/
abbrev CFG_CHIPID_HI_ID_HI : Fld := ⟨0x8, 31, 0⟩
/-- CFG_PORT_STATUS.FIDX_LATE: bits [3:3], W1C. -/
abbrev CFG_PORT_STATUS_FIDX_LATE : Fld := ⟨0x40, 3, 3⟩
/-- CFG_PORT_STATUS.ACT_STALE: bits [2:2], W1C. -/
abbrev CFG_PORT_STATUS_ACT_STALE : Fld := ⟨0x40, 2, 2⟩
/-- CFG_PORT_STATUS.ACT_FRAME_ERR: bits [1:1], W1C. -/
abbrev CFG_PORT_STATUS_ACT_FRAME_ERR : Fld := ⟨0x40, 1, 1⟩
/-- CFG_PORT_STATUS.HINT_BAD_TYPE: bits [0:0], W1C. -/
abbrev CFG_PORT_STATUS_HINT_BAD_TYPE : Fld := ⟨0x40, 0, 0⟩
/-- CFG_STRAP.TRUSTED: bits [8:8], RO. -/
abbrev CFG_STRAP_TRUSTED : Fld := ⟨0x44, 8, 8⟩
/-- CFG_STRAP.SAMPLED: bits [1:1], RO. -/
abbrev CFG_STRAP_SAMPLED : Fld := ⟨0x44, 1, 1⟩
/-- CFG_STRAP.BUILD: bits [0:0], RO. -/
abbrev CFG_STRAP_BUILD : Fld := ⟨0x44, 0, 0⟩
/-- IMG_STATUS.ERR: bits [31:24], RO. -/
abbrev IMG_STATUS_ERR : Fld := ⟨0x80, 31, 24⟩
/-- IMG_STATUS.SECTION: bits [23:20], RO. -/
abbrev IMG_STATUS_SECTION : Fld := ⟨0x80, 23, 20⟩
/-- IMG_STATUS.TRUST_REQ: bits [19:19], RO. -/
abbrev IMG_STATUS_TRUST_REQ : Fld := ⟨0x80, 19, 19⟩
/-- IMG_STATUS.DIGEST_READY: bits [18:18], RO. -/
abbrev IMG_STATUS_DIGEST_READY : Fld := ⟨0x80, 18, 18⟩
/-- IMG_STATUS.DIGEST_OK: bits [17:17], RO. -/
abbrev IMG_STATUS_DIGEST_OK : Fld := ⟨0x80, 17, 17⟩
/-- IMG_STATUS.PRIMARY: bits [16:16], RO. -/
abbrev IMG_STATUS_PRIMARY : Fld := ⟨0x80, 16, 16⟩
/-- IMG_STATUS.SAFE: bits [15:15], RO. -/
abbrev IMG_STATUS_SAFE : Fld := ⟨0x80, 15, 15⟩
/-- IMG_STATUS.UNTRUSTED: bits [14:14], W1C. -/
abbrev IMG_STATUS_UNTRUSTED : Fld := ⟨0x80, 14, 14⟩
/-- IMG_STATUS.BANK: bits [13:13], W1C. -/
abbrev IMG_STATUS_BANK : Fld := ⟨0x80, 13, 13⟩
/-- IMG_STATUS.LOADING: bits [12:12], RO. -/
abbrev IMG_STATUS_LOADING : Fld := ⟨0x80, 12, 12⟩
/-- IMG_STATUS.LOAD_MS: bits [11:0], RO. -/
abbrev IMG_STATUS_LOAD_MS : Fld := ⟨0x80, 11, 0⟩
/-- IMG_CTL.RC_COMMIT: bits [31:31], WO. -/
abbrev IMG_CTL_RC_COMMIT : Fld := ⟨0x84, 31, 31⟩
/-- IMG_CTL.SAFE_VCODE: bits [27:16], RO. -/
abbrev IMG_CTL_SAFE_VCODE : Fld := ⟨0x84, 27, 16⟩
/-- IMG_CTL.HOLD_DARK: bits [0:0], RW. -/
abbrev IMG_CTL_HOLD_DARK : Fld := ⟨0x84, 0, 0⟩
/-- IMG_SECT.BUILDREC: bits [26:24], RO. -/
abbrev IMG_SECT_BUILDREC : Fld := ⟨0x88, 26, 24⟩
/-- IMG_SECT.GROUPS: bits [23:21], RO. -/
abbrev IMG_SECT_GROUPS : Fld := ⟨0x88, 23, 21⟩
/-- IMG_SECT.RING: bits [20:18], RO. -/
abbrev IMG_SECT_RING : Fld := ⟨0x88, 20, 18⟩
/-- IMG_SECT.CALIB: bits [17:15], RO. -/
abbrev IMG_SECT_CALIB : Fld := ⟨0x88, 17, 15⟩
/-- IMG_SECT.LIMITS: bits [14:12], RO. -/
abbrev IMG_SECT_LIMITS : Fld := ⟨0x88, 14, 12⟩
/-- IMG_SECT.WEIGHTS: bits [11:9], RO. -/
abbrev IMG_SECT_WEIGHTS : Fld := ⟨0x88, 11, 9⟩
/-- IMG_SECT.PROGRAM: bits [8:6], RO. -/
abbrev IMG_SECT_PROGRAM : Fld := ⟨0x88, 8, 6⟩
/-- IMG_SECT.COEF: bits [5:3], RO. -/
abbrev IMG_SECT_COEF : Fld := ⟨0x88, 5, 3⟩
/-- IMG_SECT.OPTABLE: bits [2:0], RO. -/
abbrev IMG_SECT_OPTABLE : Fld := ⟨0x88, 2, 0⟩
/-- IMG_GEN.GENERATION: bits [31:0], RO. -/
abbrev IMG_GEN_GENERATION : Fld := ⟨0x8C, 31, 0⟩
/-- IMG_DIGEST.DIGEST: bits [31:0], RO. -/
abbrev IMG_DIGEST_DIGEST : Fld := ⟨0xA0, 31, 0⟩
/-- IMG_AUTHSEL.LEN: bits [26:16], RO. -/
abbrev IMG_AUTHSEL_LEN : Fld := ⟨0xC0, 26, 16⟩
/-- IMG_AUTHSEL.WORD: bits [7:0], RW. -/
abbrev IMG_AUTHSEL_WORD : Fld := ⟨0xC0, 7, 0⟩
/-- IMG_AUTHDATA.DATA: bits [31:0], RO. -/
abbrev IMG_AUTHDATA_DATA : Fld := ⟨0xC4, 31, 0⟩
/-- IMG_JRNL.BUSY: bits [31:31], RO. -/
abbrev IMG_JRNL_BUSY : Fld := ⟨0xD0, 31, 31⟩
/-- IMG_JRNL.FAIL: bits [30:30], W1C. -/
abbrev IMG_JRNL_FAIL : Fld := ⟨0xD0, 30, 30⟩
/-- IMG_JRNL.RC_REFUSED: bits [29:29], W1C. -/
abbrev IMG_JRNL_RC_REFUSED : Fld := ⟨0xD0, 29, 29⟩
/-- IMG_JRNL.FALLBACK: bits [28:28], W1C. -/
abbrev IMG_JRNL_FALLBACK : Fld := ⟨0xD0, 28, 28⟩
/-- IMG_JRNL.STOPPED: bits [27:27], RO. -/
abbrev IMG_JRNL_STOPPED : Fld := ⟨0xD0, 27, 27⟩
/-- IMG_JRNL.VALID: bits [23:20], RO. -/
abbrev IMG_JRNL_VALID : Fld := ⟨0xD0, 23, 20⟩
/-- IMG_JRNL.BANKS: bits [19:16], RO. -/
abbrev IMG_JRNL_BANKS : Fld := ⟨0xD0, 19, 16⟩
/-- IMG_JRNL.PEND: bits [15:12], RO. -/
abbrev IMG_JRNL_PEND : Fld := ⟨0xD0, 15, 12⟩
/-- IMG_JSEQ.SEQ: bits [31:0], RO. -/
abbrev IMG_JSEQ_SEQ : Fld := ⟨0xD4, 31, 0⟩
/-- IMG_RCADDR.ENTRY: bits [16:0], RW. -/
abbrev IMG_RCADDR_ENTRY : Fld := ⟨0xE0, 16, 0⟩
/-- IMG_RCDATA.ENTRY_DATA: bits [15:0], WO. -/
abbrev IMG_RCDATA_ENTRY_DATA : Fld := ⟨0xE4, 15, 0⟩
/-- REG_VSET.TARGET: bits [27:16], RO. -/
abbrev REG_VSET_TARGET : Fld := ⟨0x1000, 27, 16⟩
/-- REG_VSET.APPLIED: bits [11:0], RO. -/
abbrev REG_VSET_APPLIED : Fld := ⟨0x1000, 11, 0⟩
/-- REG_VSENSE.CEIL: bits [31:20], RO. -/
abbrev REG_VSENSE_CEIL : Fld := ⟨0x1400, 31, 20⟩
/-- REG_VSENSE.VOUT: bits [19:8], RO. -/
abbrev REG_VSENSE_VOUT : Fld := ⟨0x1400, 19, 8⟩
/-- REG_VSENSE.WINDOW: bits [5:0], RO. -/
abbrev REG_VSENSE_WINDOW : Fld := ⟨0x1400, 5, 0⟩
/-- REG_STATUS.OV: bits [31:31], RO. -/
abbrev REG_STATUS_OV : Fld := ⟨0x1800, 31, 31⟩
/-- REG_STATUS.UV: bits [30:30], W1C. -/
abbrev REG_STATUS_UV : Fld := ⟨0x1800, 30, 30⟩
/-- REG_STATUS.CRACKED: bits [29:29], RO. -/
abbrev REG_STATUS_CRACKED : Fld := ⟨0x1800, 29, 29⟩
/-- REG_STATUS.SENSE_SRC: bits [28:28], RO. -/
abbrev REG_STATUS_SENSE_SRC : Fld := ⟨0x1800, 28, 28⟩
/-- REG_STATUS.DET_MASK: bits [27:24], RO. -/
abbrev REG_STATUS_DET_MASK : Fld := ⟨0x1800, 27, 24⟩
/-- REG_STATUS.OVC_MASK: bits [23:20], RO. -/
abbrev REG_STATUS_OVC_MASK : Fld := ⟨0x1800, 23, 20⟩
/-- REG_STATUS.DROOP_NOW: bits [19:19], RO. -/
abbrev REG_STATUS_DROOP_NOW : Fld := ⟨0x1800, 19, 19⟩
/-- REG_STATUS.SHED_HELD: bits [18:18], RO. -/
abbrev REG_STATUS_SHED_HELD : Fld := ⟨0x1800, 18, 18⟩
/-- REG_STATUS.RAISE_WAIT: bits [17:17], RO. -/
abbrev REG_STATUS_RAISE_WAIT : Fld := ⟨0x1800, 17, 17⟩
/-- REG_STATUS.RAISE_SLOW: bits [16:16], W1C. -/
abbrev REG_STATUS_RAISE_SLOW : Fld := ⟨0x1800, 16, 16⟩
/-- REG_DROOP.DTH: bits [5:0], RW. -/
abbrev REG_DROOP_DTH : Fld := ⟨0x1C00, 5, 0⟩
/-- REG_DROOPCNT.EPISODES: bits [31:16], RO. -/
abbrev REG_DROOPCNT_EPISODES : Fld := ⟨0x2000, 31, 16⟩
/-- REG_DROOPCNT.MIN_WIN: bits [5:0], RO. -/
abbrev REG_DROOPCNT_MIN_WIN : Fld := ⟨0x2000, 5, 0⟩
/-- REG_SENSE_CFG.PROBE_EN: bits [8:8], RW. -/
abbrev REG_SENSE_CFG_PROBE_EN : Fld := ⟨0x2400, 8, 8⟩
/-- REG_SENSE_CFG.FB_OFS: bits [4:0], RW. -/
abbrev REG_SENSE_CFG_FB_OFS : Fld := ⟨0x2400, 4, 0⟩
/-- REG_FIDX.REQ: bits [29:24], RO. -/
abbrev REG_FIDX_REQ : Fld := ⟨0x2800, 29, 24⟩
/-- REG_FIDX.CUR: bits [21:16], RO. -/
abbrev REG_FIDX_CUR : Fld := ⟨0x2800, 21, 16⟩
/-- REG_FIDX.PERMIT: bits [13:8], RO. -/
abbrev REG_FIDX_PERMIT : Fld := ⟨0x2800, 13, 8⟩
/-- REG_FIDX.SEQ: bits [1:0], RO. -/
abbrev REG_FIDX_SEQ : Fld := ⟨0x2800, 1, 0⟩
/-- REG_PSTATE.CAUSE: bits [27:24], RO. -/
abbrev REG_PSTATE_CAUSE : Fld := ⟨0x2C00, 27, 24⟩
/-- REG_PSTATE.REFUSED: bits [23:23], W1C. -/
abbrev REG_PSTATE_REFUSED : Fld := ⟨0x2C00, 23, 23⟩
/-- REG_PSTATE.LATE: bits [22:22], W1C. -/
abbrev REG_PSTATE_LATE : Fld := ⟨0x2C00, 22, 22⟩
/-- REG_PSTATE.STRETCH: bits [21:16], RO. -/
abbrev REG_PSTATE_STRETCH : Fld := ⟨0x2C00, 21, 16⟩
/-- REG_PSTATE.STAGE: bits [11:8], RO. -/
abbrev REG_PSTATE_STAGE : Fld := ⟨0x2C00, 11, 8⟩
/-- REG_PSTATE.DEPTH: bits [5:4], RO. -/
abbrev REG_PSTATE_DEPTH : Fld := ⟨0x2C00, 5, 4⟩
/-- REG_PSTATE.STATE: bits [3:0], RO. -/
abbrev REG_PSTATE_STATE : Fld := ⟨0x2C00, 3, 0⟩
/-- REG_PCTL.IDLE_MIN: bits [20:16], RW. -/
abbrev REG_PCTL_IDLE_MIN : Fld := ⟨0x3000, 20, 16⟩
/-- REG_PCTL.RET_VCODE: bits [11:0], RW. -/
abbrev REG_PCTL_RET_VCODE : Fld := ⟨0x3000, 11, 0⟩
/-- REG_GROUP.VALID: bits [31:31], RW. -/
abbrev REG_GROUP_VALID : Fld := ⟨0x3400, 31, 31⟩
/-- REG_GROUP.GROUP: bits [4:0], RW. -/
abbrev REG_GROUP_GROUP : Fld := ⟨0x3400, 4, 0⟩
/-- REG_GLAT.AUTO: bits [31:31], RW. -/
abbrev REG_GLAT_AUTO : Fld := ⟨0x3800, 31, 31⟩
/-- REG_GLAT.IDLE_WIN: bits [27:24], RW. -/
abbrev REG_GLAT_IDLE_WIN : Fld := ⟨0x3800, 27, 24⟩
/-- REG_GLAT.DEPTH: bits [17:16], RO. -/
abbrev REG_GLAT_DEPTH : Fld := ⟨0x3800, 17, 16⟩
/-- REG_GLAT.WAKE: bits [15:0], RW. -/
abbrev REG_GLAT_WAKE : Fld := ⟨0x3800, 15, 0⟩
/-- REG_GSLEEP.SLEEP: bits [31:31], WO. -/
abbrev REG_GSLEEP_SLEEP : Fld := ⟨0x3880, 31, 31⟩
/-- REG_GSLEEP.FORCE: bits [30:30], WO. -/
abbrev REG_GSLEEP_FORCE : Fld := ⟨0x3880, 30, 30⟩
/-- REG_GSLEEP.WAKE: bits [29:29], WO. -/
abbrev REG_GSLEEP_WAKE : Fld := ⟨0x3880, 29, 29⟩
/-- REG_GSLEEP.REFUSED: bits [28:28], W1C. -/
abbrev REG_GSLEEP_REFUSED : Fld := ⟨0x3880, 28, 28⟩
/-- REG_GHINT.OPEN: bits [28:26], RO. -/
abbrev REG_GHINT_OPEN : Fld := ⟨0x3900, 28, 26⟩
/-- REG_GHINT.TAG: bits [25:24], RO. -/
abbrev REG_GHINT_TAG : Fld := ⟨0x3900, 25, 24⟩
/-- REG_GHINT.LEVEL: bits [23:16], RO. -/
abbrev REG_GHINT_LEVEL : Fld := ⟨0x3900, 23, 16⟩
/-- REG_GHINT.LEAD_REM: bits [15:0], RO. -/
abbrev REG_GHINT_LEAD_REM : Fld := ⟨0x3900, 15, 0⟩
/-- REG_SELECT.ADAPT: bits [31:16], RO. -/
abbrev REG_SELECT_ADAPT : Fld := ⟨0x3C00, 31, 16⟩
/-- REG_SELECT.PWIN: bits [7:5], RO. -/
abbrev REG_SELECT_PWIN : Fld := ⟨0x3C00, 7, 5⟩
/-- REG_SELECT.IWIN: bits [4:2], RO. -/
abbrev REG_SELECT_IWIN : Fld := ⟨0x3C00, 4, 2⟩
/-- REG_SELECT.VFLOOR: bits [1:1], RO. -/
abbrev REG_SELECT_VFLOOR : Fld := ⟨0x3C00, 1, 1⟩
/-- REG_SELECT.VCAP: bits [0:0], RO. -/
abbrev REG_SELECT_VCAP : Fld := ⟨0x3C00, 0, 0⟩
/-- REG_CONFLICT.VFLOOR_CNT: bits [31:16], RO. -/
abbrev REG_CONFLICT_VFLOOR_CNT : Fld := ⟨0x4000, 31, 16⟩
/-- REG_CONFLICT.VCAP_CNT: bits [15:0], RO. -/
abbrev REG_CONFLICT_VCAP_CNT : Fld := ⟨0x4000, 15, 0⟩
/-- REG_FCAST.F4: bits [31:16], RO. -/
abbrev REG_FCAST_F4 : Fld := ⟨0x4400, 31, 16⟩
/-- REG_FCAST.F1: bits [15:0], RO. -/
abbrev REG_FCAST_F1 : Fld := ⟨0x4400, 15, 0⟩
/-- PH_STATE.POPULATED: bits [31:31], RO. -/
abbrev PH_STATE_POPULATED : Fld := ⟨0x8000, 31, 31⟩
/-- PH_STATE.FAULT: bits [27:24], RO. -/
abbrev PH_STATE_FAULT : Fld := ⟨0x8000, 27, 24⟩
/-- PH_STATE.LOGICAL: bits [21:11], RO. -/
abbrev PH_STATE_LOGICAL : Fld := ⟨0x8000, 21, 11⟩
/-- PH_STATE.DUTY: bits [10:3], RO. -/
abbrev PH_STATE_DUTY : Fld := ⟨0x8000, 10, 3⟩
/-- PH_STATE.COND: bits [2:0], RO. -/
abbrev PH_STATE_COND : Fld := ⟨0x8000, 2, 0⟩
/-- PH_CURRENT.AVG16: bits [31:16], RO. -/
abbrev PH_CURRENT_AVG16 : Fld := ⟨0x9100, 31, 16⟩
/-- PH_CURRENT.LAST: bits [15:0], RO. -/
abbrev PH_CURRENT_LAST : Fld := ⟨0x9100, 15, 0⟩
/-- PH_WEAR.RON_GROWTH: bits [31:16], RO. -/
abbrev PH_WEAR_RON_GROWTH : Fld := ⟨0xA200, 31, 16⟩
/-- PH_WEAR.SENSE_OFS: bits [15:0], RO. -/
abbrev PH_WEAR_SENSE_OFS : Fld := ⟨0xA200, 15, 0⟩
/-- PH_CAL.CHAN_DLY: bits [23:16], RO. -/
abbrev PH_CAL_CHAN_DLY : Fld := ⟨0xB300, 23, 16⟩
/-- PH_CAL.DEADTIME: bits [15:12], RO. -/
abbrev PH_CAL_DEADTIME : Fld := ⟨0xB300, 15, 12⟩
/-- PH_CAL.ZERO_CODE: bits [9:0], RO. -/
abbrev PH_CAL_ZERO_CODE : Fld := ⟨0xB300, 9, 0⟩
/-- WV_PLAIT.DPW: bits [11:8], RW. -/
abbrev WV_PLAIT_DPW : Fld := ⟨0xC400, 11, 8⟩
/-- WV_PLAIT.DITHER: bits [7:7], RW. -/
abbrev WV_PLAIT_DITHER : Fld := ⟨0xC400, 7, 7⟩
/-- WV_PLAIT.ROT_LOG2: bits [3:0], RW. -/
abbrev WV_PLAIT_ROT_LOG2 : Fld := ⟨0xC400, 3, 0⟩
/-- WV_POOL.IDLE_COUNT: bits [10:8], RO. -/
abbrev WV_POOL_IDLE_COUNT : Fld := ⟨0xC440, 10, 8⟩
/-- WV_POOL.SP3: bits [7:6], RO. -/
abbrev WV_POOL_SP3 : Fld := ⟨0xC440, 7, 6⟩
/-- WV_POOL.SP2: bits [5:4], RO. -/
abbrev WV_POOL_SP2 : Fld := ⟨0xC440, 5, 4⟩
/-- WV_POOL.SP1: bits [3:2], RO. -/
abbrev WV_POOL_SP1 : Fld := ⟨0xC440, 3, 2⟩
/-- WV_POOL.SP0: bits [1:0], RO. -/
abbrev WV_POOL_SP0 : Fld := ⟨0xC440, 1, 0⟩
/-- WV_SWAP.REQ: bits [31:31], WO. -/
abbrev WV_SWAP_REQ : Fld := ⟨0xC480, 31, 31⟩
/-- WV_SWAP.REFUSED: bits [30:30], W1C. -/
abbrev WV_SWAP_REFUSED : Fld := ⟨0xC480, 30, 30⟩
/-- WV_SWAP.STAGE: bits [29:27], RO. -/
abbrev WV_SWAP_STAGE : Fld := ⟨0xC480, 29, 27⟩
/-- WV_SWAP.LPOS: bits [26:16], RW. -/
abbrev WV_SWAP_LPOS : Fld := ⟨0xC480, 26, 16⟩
/-- WV_SWAP.COUNT: bits [15:8], RWS. -/
abbrev WV_SWAP_COUNT : Fld := ⟨0xC480, 15, 8⟩
/-- WV_SWAP.QUEUED: bits [6:0], RO. -/
abbrev WV_SWAP_QUEUED : Fld := ⟨0xC480, 6, 0⟩
/-- WV_LIMCNT.FAST: bits [31:20], RO. -/
abbrev WV_LIMCNT_FAST : Fld := ⟨0xC4C0, 31, 20⟩
/-- WV_LIMCNT.SLOW: bits [19:8], RO. -/
abbrev WV_LIMCNT_SLOW : Fld := ⟨0xC4C0, 19, 8⟩
/-- WV_LIMCNT.FRAME_ERR: bits [7:0], RO. -/
abbrev WV_LIMCNT_FRAME_ERR : Fld := ⟨0xC4C0, 7, 0⟩
/-- WV_WEAR_CFG.SENSE_OFS_MAX: bits [15:8], RW. -/
abbrev WV_WEAR_CFG_SENSE_OFS_MAX : Fld := ⟨0xC500, 15, 8⟩
/-- WV_WEAR_CFG.RON_MAX: bits [7:0], RW. -/
abbrev WV_WEAR_CFG_RON_MAX : Fld := ⟨0xC500, 7, 0⟩
/-- WV_LOOP.ROUNDS: bits [12:8], RW. -/
abbrev WV_LOOP_ROUNDS : Fld := ⟨0xC540, 12, 8⟩
/-- WV_LOOP.SLEW: bits [5:0], RW. -/
abbrev WV_LOOP_SLEW : Fld := ⟨0xC540, 5, 0⟩
/-- WV_COMP.KD: bits [31:24], RW. -/
abbrev WV_COMP_KD : Fld := ⟨0xC580, 31, 24⟩
/-- WV_COMP.KI: bits [23:16], RW. -/
abbrev WV_COMP_KI : Fld := ⟨0xC580, 23, 16⟩
/-- WV_COMP.KP: bits [15:8], RW. -/
abbrev WV_COMP_KP : Fld := ⟨0xC580, 15, 8⟩
/-- WV_DAWN.FEED_A: bits [23:16], RW. -/
abbrev WV_DAWN_FEED_A : Fld := ⟨0xC5C0, 23, 16⟩
/-- WV_DAWN.STAGE_A: bits [7:0], RW. -/
abbrev WV_DAWN_STAGE_A : Fld := ⟨0xC5C0, 7, 0⟩
/-- ENG_STATUS.STATE: bits [31:29], RO. -/
abbrev ENG_STATUS_STATE : Fld := ⟨0x10000, 31, 29⟩
/-- ENG_STATUS.DET: bits [28:28], RO. -/
abbrev ENG_STATUS_DET : Fld := ⟨0x10000, 28, 28⟩
/-- ENG_STATUS.ARRAYS: bits [26:24], RO. -/
abbrev ENG_STATUS_ARRAYS : Fld := ⟨0x10000, 26, 24⟩
/-- ENG_STATUS.TICKLEN: bits [17:16], RO. -/
abbrev ENG_STATUS_TICKLEN : Fld := ⟨0x10000, 17, 16⟩
/-- ENG_CTL.HALT: bits [0:0], RW. -/
abbrev ENG_CTL_HALT : Fld := ⟨0x10004, 0, 0⟩
/-- ENG_DEADLINE_MISS.MISS: bits [31:31], W1C. -/
abbrev ENG_DEADLINE_MISS_MISS : Fld := ⟨0x10008, 31, 31⟩
/-- ENG_DEADLINE_MISS.COUNT: bits [15:0], RO. -/
abbrev ENG_DEADLINE_MISS_COUNT : Fld := ⟨0x10008, 15, 0⟩
/-- ENG_FLAGS.DET_BROKEN: bits [5:5], W1C. -/
abbrev ENG_FLAGS_DET_BROKEN : Fld := ⟨0x1000C, 5, 5⟩
/-- ENG_FLAGS.STUCK: bits [4:4], W1C. -/
abbrev ENG_FLAGS_STUCK : Fld := ⟨0x1000C, 4, 4⟩
/-- ENG_FLAGS.ARRAY_MISMATCH: bits [3:3], W1C. -/
abbrev ENG_FLAGS_ARRAY_MISMATCH : Fld := ⟨0x1000C, 3, 3⟩
/-- ENG_FLAGS.ABORT_UE: bits [2:2], W1C. -/
abbrev ENG_FLAGS_ABORT_UE : Fld := ⟨0x1000C, 2, 2⟩
/-- ENG_FLAGS.RING_DROP: bits [1:1], W1C. -/
abbrev ENG_FLAGS_RING_DROP : Fld := ⟨0x1000C, 1, 1⟩
/-- ENG_FLAGS.MWR_REFUSED: bits [0:0], W1C. -/
abbrev ENG_FLAGS_MWR_REFUSED : Fld := ⟨0x1000C, 0, 0⟩
/-- ENG_TICKNO_LO.VAL: bits [31:0], RO. -/
abbrev ENG_TICKNO_LO_VAL : Fld := ⟨0x10010, 31, 0⟩
/-- ENG_TICKNO_HI.VAL: bits [31:0], RO. -/
abbrev ENG_TICKNO_HI_VAL : Fld := ⟨0x10014, 31, 0⟩
/-- ENG_CYCLES.STATIC: bits [29:20], RO. -/
abbrev ENG_CYCLES_STATIC : Fld := ⟨0x10018, 29, 20⟩
/-- ENG_CYCLES.MAX: bits [19:10], RO. -/
abbrev ENG_CYCLES_MAX : Fld := ⟨0x10018, 19, 10⟩
/-- ENG_CYCLES.LAST: bits [9:0], RO. -/
abbrev ENG_CYCLES_LAST : Fld := ⟨0x10018, 9, 0⟩
/-- ENG_STALL.MAX: bits [15:8], RO. -/
abbrev ENG_STALL_MAX : Fld := ⟨0x1001C, 15, 8⟩
/-- ENG_STALL.LAST: bits [7:0], RO. -/
abbrev ENG_STALL_LAST : Fld := ⟨0x1001C, 7, 0⟩
/-- ENG_ECC.CORR: bits [31:16], RO. -/
abbrev ENG_ECC_CORR : Fld := ⟨0x10020, 31, 16⟩
/-- ENG_ECC.UE_MEM: bits [10:8], RO. -/
abbrev ENG_ECC_UE_MEM : Fld := ⟨0x10020, 10, 8⟩
/-- ENG_ARRAY.ORPHAN: bits [22:20], RO. -/
abbrev ENG_ARRAY_ORPHAN : Fld := ⟨0x10024, 22, 20⟩
/-- ENG_ARRAY.A4_SERVES: bits [14:12], RO. -/
abbrev ENG_ARRAY_A4_SERVES : Fld := ⟨0x10024, 14, 12⟩
/-- ENG_ARRAY.AS4: bits [9:8], RO. -/
abbrev ENG_ARRAY_AS4 : Fld := ⟨0x10024, 9, 8⟩
/-- ENG_ARRAY.AS3: bits [7:6], RO. -/
abbrev ENG_ARRAY_AS3 : Fld := ⟨0x10024, 7, 6⟩
/-- ENG_ARRAY.AS2: bits [5:4], RO. -/
abbrev ENG_ARRAY_AS2 : Fld := ⟨0x10024, 5, 4⟩
/-- ENG_ARRAY.AS1: bits [3:2], RO. -/
abbrev ENG_ARRAY_AS1 : Fld := ⟨0x10024, 3, 2⟩
/-- ENG_ARRAY.AS0: bits [1:0], RO. -/
abbrev ENG_ARRAY_AS0 : Fld := ⟨0x10024, 1, 0⟩
/-- ENG_MADDR.MEM: bits [31:29], RW. -/
abbrev ENG_MADDR_MEM : Fld := ⟨0x10028, 31, 29⟩
/-- ENG_MADDR.BUSY: bits [28:28], RO. -/
abbrev ENG_MADDR_BUSY : Fld := ⟨0x10028, 28, 28⟩
/-- ENG_MADDR.WORD: bits [16:0], RW. -/
abbrev ENG_MADDR_WORD : Fld := ⟨0x10028, 16, 0⟩
/-- ENG_MDATA.DATA: bits [31:0], RW. -/
abbrev ENG_MDATA_DATA : Fld := ⟨0x1002C, 31, 0⟩
/-- ENG_ARITH.OVF3: bits [7:7], W1C. -/
abbrev ENG_ARITH_OVF3 : Fld := ⟨0x1003C, 7, 7⟩
/-- ENG_ARITH.INV3: bits [6:6], W1C. -/
abbrev ENG_ARITH_INV3 : Fld := ⟨0x1003C, 6, 6⟩
/-- ENG_ARITH.OVF2: bits [5:5], W1C. -/
abbrev ENG_ARITH_OVF2 : Fld := ⟨0x1003C, 5, 5⟩
/-- ENG_ARITH.INV2: bits [4:4], W1C. -/
abbrev ENG_ARITH_INV2 : Fld := ⟨0x1003C, 4, 4⟩
/-- ENG_ARITH.OVF1: bits [3:3], W1C. -/
abbrev ENG_ARITH_OVF1 : Fld := ⟨0x1003C, 3, 3⟩
/-- ENG_ARITH.INV1: bits [2:2], W1C. -/
abbrev ENG_ARITH_INV1 : Fld := ⟨0x1003C, 2, 2⟩
/-- ENG_ARITH.OVF0: bits [1:1], W1C. -/
abbrev ENG_ARITH_OVF0 : Fld := ⟨0x1003C, 1, 1⟩
/-- ENG_ARITH.INV0: bits [0:0], W1C. -/
abbrev ENG_ARITH_INV0 : Fld := ⟨0x1003C, 0, 0⟩
/-- ENG_HINTSTAT.BAR_STALE: bits [23:16], RO. -/
abbrev ENG_HINTSTAT_BAR_STALE : Fld := ⟨0x10040, 23, 16⟩
/-- ENG_HINTSTAT.BAR_OVERFLOW: bits [15:8], RO. -/
abbrev ENG_HINTSTAT_BAR_OVERFLOW : Fld := ⟨0x10040, 15, 8⟩
/-- ENG_HINTSTAT.UNMATCHED: bits [7:0], RO. -/
abbrev ENG_HINTSTAT_UNMATCHED : Fld := ⟨0x10040, 7, 0⟩
/-- ENG_PRED.DISABLED: bits [0:0], RO. -/
abbrev ENG_PRED_DISABLED : Fld := ⟨0x10044, 0, 0⟩
/-- TRC_STATUS.RECORDING: bits [31:31], RO. -/
abbrev TRC_STATUS_RECORDING : Fld := ⟨0x10100, 31, 31⟩
/-- TRC_STATUS.ARMED: bits [30:30], RO. -/
abbrev TRC_STATUS_ARMED : Fld := ⟨0x10100, 30, 30⟩
/-- TRC_STATUS.FULL: bits [29:29], W1C. -/
abbrev TRC_STATUS_FULL : Fld := ⟨0x10100, 29, 29⟩
/-- TRC_STATUS.LOSS: bits [28:28], W1C. -/
abbrev TRC_STATUS_LOSS : Fld := ⟨0x10100, 28, 28⟩
/-- TRC_STATUS.REFUSED: bits [27:27], W1C. -/
abbrev TRC_STATUS_REFUSED : Fld := ⟨0x10100, 27, 27⟩
/-- TRC_STATUS.TRIGGERED: bits [26:26], W1C. -/
abbrev TRC_STATUS_TRIGGERED : Fld := ⟨0x10100, 26, 26⟩
/-- TRC_STATUS.REPLAYABLE: bits [25:25], RO. -/
abbrev TRC_STATUS_REPLAYABLE : Fld := ⟨0x10100, 25, 25⟩
/-- TRC_STATUS.FILL: bits [19:0], RO. -/
abbrev TRC_STATUS_FILL : Fld := ⟨0x10100, 19, 0⟩
/-- TRC_CTL.MODE: bits [31:30], RW. -/
abbrev TRC_CTL_MODE : Fld := ⟨0x10104, 31, 30⟩
/-- TRC_CTL.EXPORT: bits [29:29], RW. -/
abbrev TRC_CTL_EXPORT : Fld := ⟨0x10104, 29, 29⟩
/-- TRC_CTL.HOLD_INIT: bits [28:28], RWS. -/
abbrev TRC_CTL_HOLD_INIT : Fld := ⟨0x10104, 28, 28⟩
/-- TRC_CTL.STOP: bits [0:0], WO. -/
abbrev TRC_CTL_STOP : Fld := ⟨0x10104, 0, 0⟩
/-- TRC_CFG.DECIM: bits [31:24], RW. -/
abbrev TRC_CFG_DECIM : Fld := ⟨0x10108, 31, 24⟩
/-- TRC_CFG.POST: bits [23:16], RW. -/
abbrev TRC_CFG_POST : Fld := ⟨0x10108, 23, 16⟩
/-- TRC_CFG.TRIG_EN: bits [15:15], RW. -/
abbrev TRC_CFG_TRIG_EN : Fld := ⟨0x10108, 15, 15⟩
/-- TRC_CFG.TRIG_SRC: bits [14:8], RW. -/
abbrev TRC_CFG_TRIG_SRC : Fld := ⟨0x10108, 14, 8⟩
/-- TRC_CFG.GROUPS: bits [4:0], RW. -/
abbrev TRC_CFG_GROUPS : Fld := ⟨0x10108, 4, 0⟩
/-- TRC_SEED_LO.SEED_LO: bits [31:0], RW. -/
abbrev TRC_SEED_LO_SEED_LO : Fld := ⟨0x1010C, 31, 0⟩
/-- TRC_SEED_HI.SEED_HI: bits [31:0], RW. -/
abbrev TRC_SEED_HI_SEED_HI : Fld := ⟨0x10110, 31, 0⟩
/-- TRC_EXP_BASE_LO.BASE_MID: bits [31:12], RW. -/
abbrev TRC_EXP_BASE_LO_BASE_MID : Fld := ⟨0x10114, 31, 12⟩
/-- TRC_EXP_BASE_HI.SIZE_LOG2: bits [13:8], RW. -/
abbrev TRC_EXP_BASE_HI_SIZE_LOG2 : Fld := ⟨0x10118, 13, 8⟩
/-- TRC_EXP_BASE_HI.BASE_HI: bits [7:0], RW. -/
abbrev TRC_EXP_BASE_HI_BASE_HI : Fld := ⟨0x10118, 7, 0⟩
/-- TRC_EXP_WPTR.WPTR: bits [31:0], RO. -/
abbrev TRC_EXP_WPTR_WPTR : Fld := ⟨0x1011C, 31, 0⟩
/-- TRC_EXP_RPTR.RPTR: bits [31:0], RW. -/
abbrev TRC_EXP_RPTR_RPTR : Fld := ⟨0x10120, 31, 0⟩
/-- TRC_TICKSET_LO.TICK_LO: bits [31:0], WO. -/
abbrev TRC_TICKSET_LO_TICK_LO : Fld := ⟨0x10124, 31, 0⟩
/-- TRC_TICKSET_HI.TICK_HI: bits [31:0], WO. -/
abbrev TRC_TICKSET_HI_TICK_HI : Fld := ⟨0x10128, 31, 0⟩
/-- TRC_REPLAY.START: bits [31:31], WO. -/
abbrev TRC_REPLAY_START : Fld := ⟨0x1012C, 31, 31⟩
/-- TRC_REPLAY.BUSY: bits [30:30], RO. -/
abbrev TRC_REPLAY_BUSY : Fld := ⟨0x1012C, 30, 30⟩
/-- TRC_REPLAY.DONE: bits [29:29], RWS. -/
abbrev TRC_REPLAY_DONE : Fld := ⟨0x1012C, 29, 29⟩
/-- TRC_REPLAY.REFUSED: bits [28:28], W1C. -/
abbrev TRC_REPLAY_REFUSED : Fld := ⟨0x1012C, 28, 28⟩
/-- TRC_REPLAY.MISMATCH: bits [27:16], RWS. -/
abbrev TRC_REPLAY_MISMATCH : Fld := ⟨0x1012C, 27, 16⟩
/-- TRC_REPLAY.FIRST: bits [15:0], RWS. -/
abbrev TRC_REPLAY_FIRST : Fld := ⟨0x1012C, 15, 0⟩
/-- TRC_SIG.SIG: bits [31:0], RO. -/
abbrev TRC_SIG_SIG : Fld := ⟨0x10130, 31, 0⟩
/-- TRC_FLAGS.SLICE_FLAGS: bits [7:0], RW. -/
abbrev TRC_FLAGS_SLICE_FLAGS : Fld := ⟨0x10134, 7, 0⟩
/-- PWR_STATUS.SCALE: bits [15:8], RO. -/
abbrev PWR_STATUS_SCALE : Fld := ⟨0x20000, 15, 8⟩
/-- PWR_STATUS.GAP: bits [4:4], W1C. -/
abbrev PWR_STATUS_GAP : Fld := ⟨0x20000, 4, 4⟩
/-- PWR_STATUS.CAP_ACTIVE: bits [3:3], RO. -/
abbrev PWR_STATUS_CAP_ACTIVE : Fld := ⟨0x20000, 3, 3⟩
/-- PWR_STATUS.CAP_FLOOR: bits [2:2], W1C. -/
abbrev PWR_STATUS_CAP_FLOOR : Fld := ⟨0x20000, 2, 2⟩
/-- PWR_STATUS.OVER_SLOW: bits [1:1], W1C. -/
abbrev PWR_STATUS_OVER_SLOW : Fld := ⟨0x20000, 1, 1⟩
/-- PWR_STATUS.OVER_FAST: bits [0:0], W1C. -/
abbrev PWR_STATUS_OVER_FAST : Fld := ⟨0x20000, 0, 0⟩
/-- PWR_CAP_FAST.LIMIT: bits [11:0], RW. -/
abbrev PWR_CAP_FAST_LIMIT : Fld := ⟨0x20004, 11, 0⟩
/-- PWR_CAP_SLOW.WIN: bits [31:25], RW. -/
abbrev PWR_CAP_SLOW_WIN : Fld := ⟨0x20008, 31, 25⟩
/-- PWR_CAP_SLOW.INFORCE: bits [24:13], RO. -/
abbrev PWR_CAP_SLOW_INFORCE : Fld := ⟨0x20008, 24, 13⟩
/-- PWR_CAP_SLOW.LIMIT: bits [11:0], RW. -/
abbrev PWR_CAP_SLOW_LIMIT : Fld := ⟨0x20008, 11, 0⟩
/-- PWR_CAP_CFG.GAIN: bits [31:24], RW. -/
abbrev PWR_CAP_CFG_GAIN : Fld := ⟨0x2000C, 31, 24⟩
/-- PWR_CAP_CFG.CAP_MIN: bits [23:16], RW. -/
abbrev PWR_CAP_CFG_CAP_MIN : Fld := ⟨0x2000C, 23, 16⟩
/-- PWR_CAP_CFG.P_OTHER: bits [11:0], RW. -/
abbrev PWR_CAP_CFG_P_OTHER : Fld := ⟨0x2000C, 11, 0⟩
/-- PWR_SLOPE.FLOOR_EN: bits [24:24], RW. -/
abbrev PWR_SLOPE_FLOOR_EN : Fld := ⟨0x20010, 24, 24⟩
/-- PWR_SLOPE.FLOOR_M: bits [23:16], RW. -/
abbrev PWR_SLOPE_FLOOR_M : Fld := ⟨0x20010, 23, 16⟩
/-- PWR_SLOPE.FALL: bits [13:8], RW. -/
abbrev PWR_SLOPE_FALL : Fld := ⟨0x20010, 13, 8⟩
/-- PWR_SLOPE.RISE: bits [5:0], RW. -/
abbrev PWR_SLOPE_RISE : Fld := ⟨0x20010, 5, 0⟩
/-- PWR_CORR.T2: bits [15:8], RW. -/
abbrev PWR_CORR_T2 : Fld := ⟨0x20014, 15, 8⟩
/-- PWR_CORR.TAU: bits [7:0], RW. -/
abbrev PWR_CORR_TAU : Fld := ⟨0x20014, 7, 0⟩
/-- PWR_CHIP.AVG_FAST: bits [31:16], RO. -/
abbrev PWR_CHIP_AVG_FAST : Fld := ⟨0x20018, 31, 16⟩
/-- PWR_CHIP.NOW: bits [15:0], RO. -/
abbrev PWR_CHIP_NOW : Fld := ⟨0x20018, 15, 0⟩
/-- PWR_AVG.TGT: bits [31:16], RO. -/
abbrev PWR_AVG_TGT : Fld := ⟨0x2001C, 31, 16⟩
/-- PWR_AVG.AVG_SLOW: bits [15:0], RO. -/
abbrev PWR_AVG_AVG_SLOW : Fld := ⟨0x2001C, 15, 0⟩
/-- PWR_E_CHIP.E: bits [31:0], RWS. -/
abbrev PWR_E_CHIP_E : Fld := ⟨0x20020, 31, 0⟩
/-- PWR_E_UNATTR.E: bits [31:0], RWS. -/
abbrev PWR_E_UNATTR_E : Fld := ⟨0x20028, 31, 0⟩
/-- PWR_FEAT.FSEL: bits [19:16], RW. -/
abbrev PWR_FEAT_FSEL : Fld := ⟨0x20040, 19, 16⟩
/-- PWR_FEAT.FNORM: bits [11:0], RW. -/
abbrev PWR_FEAT_FNORM : Fld := ⟨0x20040, 11, 0⟩
/-- PWR_PMAP.FULL: bits [31:16], RW. -/
abbrev PWR_PMAP_FULL : Fld := ⟨0x20100, 31, 16⟩
/-- PWR_PMAP.LAST: bits [15:8], RW. -/
abbrev PWR_PMAP_LAST : Fld := ⟨0x20100, 15, 8⟩
/-- PWR_PMAP.FIRST: bits [7:0], RW. -/
abbrev PWR_PMAP_FIRST : Fld := ⟨0x20100, 7, 0⟩
/-- PWR_QMAP.VALID: bits [31:31], RW. -/
abbrev PWR_QMAP_VALID : Fld := ⟨0x20200, 31, 31⟩
/-- PWR_QMAP.QUEUE: bits [7:0], RW. -/
abbrev PWR_QMAP_QUEUE : Fld := ⟨0x20200, 7, 0⟩
/-- PWR_PREF.FPREF: bits [21:16], RW. -/
abbrev PWR_PREF_FPREF : Fld := ⟨0x20300, 21, 16⟩
/-- PWR_PREF.VPREF: bits [11:0], RW. -/
abbrev PWR_PREF_VPREF : Fld := ⟨0x20300, 11, 0⟩
/-- PWR_REGION.MEAS: bits [31:16], RO. -/
abbrev PWR_REGION_MEAS : Fld := ⟨0x20800, 31, 16⟩
/-- PWR_REGION.POWER: bits [15:0], RO. -/
abbrev PWR_REGION_POWER : Fld := ⟨0x20800, 15, 0⟩
/-- PWR_LKG.LEAK: bits [15:0], RW. -/
abbrev PWR_LKG_LEAK : Fld := ⟨0x20C00, 15, 0⟩
/-- PWR_EWT.EWT: bits [15:0], RW. -/
abbrev PWR_EWT_EWT : Fld := ⟨0x21000, 15, 0⟩
/-- PWR_E_PART.E: bits [31:0], RWS. -/
abbrev PWR_E_PART_E : Fld := ⟨0x22000, 31, 0⟩
/-- PWR_E_QUEUE.E: bits [31:0], RWS. -/
abbrev PWR_E_QUEUE_E : Fld := ⟨0x22200, 31, 0⟩
/-- THM_STATUS.HOT_REGION: bits [23:16], RO. -/
abbrev THM_STATUS_HOT_REGION : Fld := ⟨0x28000, 23, 16⟩
/-- THM_STATUS.FLASH_OK: bits [9:9], RO. -/
abbrev THM_STATUS_FLASH_OK : Fld := ⟨0x28000, 9, 9⟩
/-- THM_STATUS.NOMINAL: bits [8:8], RO. -/
abbrev THM_STATUS_NOMINAL : Fld := ⟨0x28000, 8, 8⟩
/-- THM_STATUS.TRIP: bits [7:7], RO. -/
abbrev THM_STATUS_TRIP : Fld := ⟨0x28000, 7, 7⟩
/-- THM_STATUS.STOP: bits [6:6], W1C. -/
abbrev THM_STATUS_STOP : Fld := ⟨0x28000, 6, 6⟩
/-- THM_STATUS.IMMEDIATE: bits [5:5], RO. -/
abbrev THM_STATUS_IMMEDIATE : Fld := ⟨0x28000, 5, 5⟩
/-- THM_STATUS.ACK_LATE: bits [4:4], W1C. -/
abbrev THM_STATUS_ACK_LATE : Fld := ⟨0x28000, 4, 4⟩
/-- THM_STATUS.NO_SPARE: bits [3:3], W1C. -/
abbrev THM_STATUS_NO_SPARE : Fld := ⟨0x28000, 3, 3⟩
/-- THM_STATUS.BROKEN: bits [2:2], W1C. -/
abbrev THM_STATUS_BROKEN : Fld := ⟨0x28000, 2, 2⟩
/-- THM_STATUS.RISE: bits [1:1], W1C. -/
abbrev THM_STATUS_RISE : Fld := ⟨0x28000, 1, 1⟩
/-- THM_STATUS.THROTTLE: bits [0:0], RO. -/
abbrev THM_STATUS_THROTTLE : Fld := ⟨0x28000, 0, 0⟩
/-- THM_THR.RISE_THR: bits [31:24], RW. -/
abbrev THM_THR_RISE_THR : Fld := ⟨0x28004, 31, 24⟩
/-- THM_THR.KT: bits [23:16], RW. -/
abbrev THM_THR_KT : Fld := ⟨0x28004, 23, 16⟩
/-- THM_THR.STOP: bits [15:8], RW. -/
abbrev THM_THR_STOP : Fld := ⟨0x28004, 15, 8⟩
/-- THM_THR.THROTTLE: bits [7:0], RW. -/
abbrev THM_THR_THROTTLE : Fld := ⟨0x28004, 7, 0⟩
/-- THM_CFG.DRIFT_MAX: bits [23:16], RW. -/
abbrev THM_CFG_DRIFT_MAX : Fld := ⟨0x28008, 23, 16⟩
/-- THM_CFG.CTRL_WV: bits [15:12], RW. -/
abbrev THM_CFG_CTRL_WV : Fld := ⟨0x28008, 15, 12⟩
/-- THM_CFG.KF: bits [11:8], RW. -/
abbrev THM_CFG_KF : Fld := ⟨0x28008, 11, 8⟩
/-- THM_CFG.HOR: bits [7:0], RW. -/
abbrev THM_CFG_HOR : Fld := ⟨0x28008, 7, 0⟩
/-- THM_TRIP.TRIP_C: bits [7:0], RO. -/
abbrev THM_TRIP_TRIP_C : Fld := ⟨0x2800C, 7, 0⟩
/-- THM_TEMP.SRC: bits [31:30], RO. -/
abbrev THM_TEMP_SRC : Fld := ⟨0x28100, 31, 30⟩
/-- THM_TEMP.BAND: bits [29:27], RO. -/
abbrev THM_TEMP_BAND : Fld := ⟨0x28100, 29, 27⟩
/-- THM_TEMP.RATE: bits [25:16], RO. -/
abbrev THM_TEMP_RATE : Fld := ⟨0x28100, 25, 16⟩
/-- THM_TEMP.TEMP: bits [11:0], RO. -/
abbrev THM_TEMP_TEMP : Fld := ⟨0x28100, 11, 0⟩
/-- THM_SENSOR.STATE: bits [31:30], RO. -/
abbrev THM_SENSOR_STATE : Fld := ⟨0x28500, 31, 30⟩
/-- THM_SENSOR.CODE: bits [15:0], RO. -/
abbrev THM_SENSOR_CODE : Fld := ⟨0x28500, 15, 0⟩
/-- THM_SPARE.STATE: bits [31:30], RO. -/
abbrev THM_SPARE_STATE : Fld := ⟨0x28A00, 31, 30⟩
/-- THM_SPARE.SERVES: bits [23:16], RO. -/
abbrev THM_SPARE_SERVES : Fld := ⟨0x28A00, 23, 16⟩
/-- THM_SPARE.OFS: bits [11:0], RO. -/
abbrev THM_SPARE_OFS : Fld := ⟨0x28A00, 11, 0⟩
/-- CLK_STATUS.MODE: bits [31:30], RO. -/
abbrev CLK_STATUS_MODE : Fld := ⟨0x30000, 31, 30⟩
/-- CLK_STATUS.PSYNC_LOCKED: bits [29:29], RO. -/
abbrev CLK_STATUS_PSYNC_LOCKED : Fld := ⟨0x30000, 29, 29⟩
/-- CLK_STATUS.SSC_SUPPR: bits [28:28], RO. -/
abbrev CLK_STATUS_SSC_SUPPR : Fld := ⟨0x30000, 28, 28⟩
/-- CLK_STATUS.REF: bits [27:26], RO. -/
abbrev CLK_STATUS_REF : Fld := ⟨0x30000, 27, 26⟩
/-- CLK_STATUS.SVC_SRC: bits [25:25], RO. -/
abbrev CLK_STATUS_SVC_SRC : Fld := ⟨0x30000, 25, 25⟩
/-- CLK_STATUS.PH_ACTIVE: bits [24:24], RO. -/
abbrev CLK_STATUS_PH_ACTIVE : Fld := ⟨0x30000, 24, 24⟩
/-- CLK_STATUS.LANE_RDY: bits [7:7], RO. -/
abbrev CLK_STATUS_LANE_RDY : Fld := ⟨0x30000, 7, 7⟩
/-- CLK_STATUS.PLLS_RDY: bits [6:6], RO. -/
abbrev CLK_STATUS_PLLS_RDY : Fld := ⟨0x30000, 6, 6⟩
/-- CLK_STATUS.PLLP_RDY: bits [5:5], RO. -/
abbrev CLK_STATUS_PLLP_RDY : Fld := ⟨0x30000, 5, 5⟩
/-- CLK_STATUS.PLLE_RDY: bits [4:4], RO. -/
abbrev CLK_STATUS_PLLE_RDY : Fld := ⟨0x30000, 4, 4⟩
/-- CLK_STATUS.XB_RDY: bits [3:3], RO. -/
abbrev CLK_STATUS_XB_RDY : Fld := ⟨0x30000, 3, 3⟩
/-- CLK_STATUS.XA_RDY: bits [2:2], RO. -/
abbrev CLK_STATUS_XA_RDY : Fld := ⟨0x30000, 2, 2⟩
/-- CLK_STATUS.FIO_RDY: bits [1:1], RO. -/
abbrev CLK_STATUS_FIO_RDY : Fld := ⟨0x30000, 1, 1⟩
/-- CLK_STATUS.SLO_RDY: bits [0:0], RO. -/
abbrev CLK_STATUS_SLO_RDY : Fld := ⟨0x30000, 0, 0⟩
/-- CLK_CTL.REF_AUTO: bits [8:8], RW. -/
abbrev CLK_CTL_REF_AUTO : Fld := ⟨0x30004, 8, 8⟩
/-- CLK_CTL.SVC_SWAP: bits [1:1], WO. -/
abbrev CLK_CTL_SVC_SWAP : Fld := ⟨0x30004, 1, 1⟩
/-- CLK_CTL.PH_SWAP: bits [0:0], WO. -/
abbrev CLK_CTL_PH_SWAP : Fld := ⟨0x30004, 0, 0⟩
/-- CLK_GATE.PLLS: bits [14:12], RW. -/
abbrev CLK_GATE_PLLS : Fld := ⟨0x30008, 14, 12⟩
/-- CLK_GATE.PLLP: bits [11:9], RW. -/
abbrev CLK_GATE_PLLP : Fld := ⟨0x30008, 11, 9⟩
/-- CLK_GATE.PLLE: bits [8:6], RW. -/
abbrev CLK_GATE_PLLE : Fld := ⟨0x30008, 8, 6⟩
/-- CLK_GATE.XB: bits [5:3], RW. -/
abbrev CLK_GATE_XB : Fld := ⟨0x30008, 5, 3⟩
/-- CLK_GATE.FIO: bits [2:0], RW. -/
abbrev CLK_GATE_FIO : Fld := ⟨0x30008, 2, 0⟩
/-- CLK_XCFG.XB_10K: bits [31:16], RW. -/
abbrev CLK_XCFG_XB_10K : Fld := ⟨0x3000C, 31, 16⟩
/-- CLK_XCFG.XA_10K: bits [15:0], RO. -/
abbrev CLK_XCFG_XA_10K : Fld := ⟨0x3000C, 15, 0⟩
/-- CLK_SSC.DITHER: bits [12:12], RW. -/
abbrev CLK_SSC_DITHER : Fld := ⟨0x30010, 12, 12⟩
/-- CLK_SSC.RATE: bits [11:8], RW. -/
abbrev CLK_SSC_RATE : Fld := ⟨0x30010, 11, 8⟩
/-- CLK_SSC.DEPTH: bits [4:0], RW. -/
abbrev CLK_SSC_DEPTH : Fld := ⟨0x30010, 4, 0⟩
/-- CLK_PSYNC.EN: bits [31:31], RW. -/
abbrev CLK_PSYNC_EN : Fld := ⟨0x30014, 31, 31⟩
/-- CLK_PSYNC.REFUSED: bits [30:30], W1C. -/
abbrev CLK_PSYNC_REFUSED : Fld := ⟨0x30014, 30, 30⟩
/-- CLK_PSYNC.N: bits [20:16], RO. -/
abbrev CLK_PSYNC_N : Fld := ⟨0x30014, 20, 16⟩
/-- CLK_PSYNC.OFFSET: bits [7:0], RW. -/
abbrev CLK_PSYNC_OFFSET : Fld := ⟨0x30014, 7, 0⟩
/-- CLK_MON.SW_REFUSED: bits [10:10], W1C. -/
abbrev CLK_MON_SW_REFUSED : Fld := ⟨0x30018, 10, 10⟩
/-- CLK_MON.COLLAPSE: bits [9:9], W1C. -/
abbrev CLK_MON_COLLAPSE : Fld := ⟨0x30018, 9, 9⟩
/-- CLK_MON.PH_ACTIVE_LOSS: bits [8:8], W1C. -/
abbrev CLK_MON_PH_ACTIVE_LOSS : Fld := ⟨0x30018, 8, 8⟩
/-- CLK_MON.LANE_LOSS: bits [7:7], W1C. -/
abbrev CLK_MON_LANE_LOSS : Fld := ⟨0x30018, 7, 7⟩
/-- CLK_MON.PLLS_LOSS: bits [6:6], W1C. -/
abbrev CLK_MON_PLLS_LOSS : Fld := ⟨0x30018, 6, 6⟩
/-- CLK_MON.PLLP_LOSS: bits [5:5], W1C. -/
abbrev CLK_MON_PLLP_LOSS : Fld := ⟨0x30018, 5, 5⟩
/-- CLK_MON.PLLE_LOSS: bits [4:4], W1C. -/
abbrev CLK_MON_PLLE_LOSS : Fld := ⟨0x30018, 4, 4⟩
/-- CLK_MON.XB_LOSS: bits [3:3], W1C. -/
abbrev CLK_MON_XB_LOSS : Fld := ⟨0x30018, 3, 3⟩
/-- CLK_MON.XA_LOSS: bits [2:2], W1C. -/
abbrev CLK_MON_XA_LOSS : Fld := ⟨0x30018, 2, 2⟩
/-- CLK_MON.FIO_LOSS: bits [1:1], W1C. -/
abbrev CLK_MON_FIO_LOSS : Fld := ⟨0x30018, 1, 1⟩
/-- CLK_MON.SLO_STOP: bits [0:0], W1C. -/
abbrev CLK_MON_SLO_STOP : Fld := ⟨0x30018, 0, 0⟩
/-- CLK_FAILOVER.COUNT: bits [31:24], RWS. -/
abbrev CLK_FAILOVER_COUNT : Fld := ⟨0x3001C, 31, 24⟩
/-- CLK_FAILOVER.GAP: bits [15:0], RO. -/
abbrev CLK_FAILOVER_GAP : Fld := ⟨0x3001C, 15, 0⟩
/-- ADC_STATUS.NOMINAL: bits [15:15], RO. -/
abbrev ADC_STATUS_NOMINAL : Fld := ⟨0x34000, 15, 15⟩
/-- ADC_STATUS.PHTRIG_PEND: bits [14:14], RO. -/
abbrev ADC_STATUS_PHTRIG_PEND : Fld := ⟨0x34000, 14, 14⟩
/-- ADC_STATUS.AUX_FAIL: bits [13:13], W1C. -/
abbrev ADC_STATUS_AUX_FAIL : Fld := ⟨0x34000, 13, 13⟩
/-- ADC_STATUS.NO_SPARE: bits [12:12], W1C. -/
abbrev ADC_STATUS_NO_SPARE : Fld := ⟨0x34000, 12, 12⟩
/-- ADC_STATUS.ADC_MISMATCH: bits [11:11], W1C. -/
abbrev ADC_STATUS_ADC_MISMATCH : Fld := ⟨0x34000, 11, 11⟩
/-- ADC_STATUS.WIN_FAIL: bits [10:10], W1C. -/
abbrev ADC_STATUS_WIN_FAIL : Fld := ⟨0x34000, 10, 10⟩
/-- ADC_STATUS.ADC_FAIL: bits [9:9], W1C. -/
abbrev ADC_STATUS_ADC_FAIL : Fld := ⟨0x34000, 9, 9⟩
/-- ADC_STATUS.REF_FAULT: bits [8:8], W1C. -/
abbrev ADC_STATUS_REF_FAULT : Fld := ⟨0x34000, 8, 8⟩
/-- ADC_STATUS.REF_REFUSED: bits [7:7], W1C. -/
abbrev ADC_STATUS_REF_REFUSED : Fld := ⟨0x34000, 7, 7⟩
/-- ADC_STATUS.REF_SETTLED: bits [3:0], RO. -/
abbrev ADC_STATUS_REF_SETTLED : Fld := ⟨0x34000, 3, 0⟩
/-- ADC_REF.EXT_MV: bits [26:16], RW. -/
abbrev ADC_REF_EXT_MV : Fld := ⟨0x34004, 26, 16⟩
/-- ADC_REF.SEL_AUX: bits [7:6], RW. -/
abbrev ADC_REF_SEL_AUX : Fld := ⟨0x34004, 7, 6⟩
/-- ADC_REF.SEL_VINQ: bits [5:4], RW. -/
abbrev ADC_REF_SEL_VINQ : Fld := ⟨0x34004, 5, 4⟩
/-- ADC_REF.SEL_PHASE: bits [3:2], RW. -/
abbrev ADC_REF_SEL_PHASE : Fld := ⟨0x34004, 3, 2⟩
/-- ADC_REF.SEL_REGION: bits [1:0], RW. -/
abbrev ADC_REF_SEL_REGION : Fld := ⟨0x34004, 1, 0⟩
/-- ADC_CAL_CTL.START: bits [31:31], WO. -/
abbrev ADC_CAL_CTL_START : Fld := ⟨0x34008, 31, 31⟩
/-- ADC_CAL_CTL.POINT: bits [30:30], RW. -/
abbrev ADC_CAL_CTL_POINT : Fld := ⟨0x34008, 30, 30⟩
/-- ADC_CAL_CTL.CAL_BUSY: bits [29:29], RO. -/
abbrev ADC_CAL_CTL_CAL_BUSY : Fld := ⟨0x34008, 29, 29⟩
/-- ADC_CAL_CTL.CAL_DONE: bits [28:28], W1C. -/
abbrev ADC_CAL_CTL_CAL_DONE : Fld := ⟨0x34008, 28, 28⟩
/-- ADC_CAL_CTL.JOURNAL_PEND: bits [27:27], RO. -/
abbrev ADC_CAL_CTL_JOURNAL_PEND : Fld := ⟨0x34008, 27, 27⟩
/-- ADC_CAL_CTL.CAL_ERR: bits [26:24], W1C. -/
abbrev ADC_CAL_CTL_CAL_ERR : Fld := ⟨0x34008, 26, 24⟩
/-- ADC_CAL_CTL.VFULL: bits [11:0], RW. -/
abbrev ADC_CAL_CTL_VFULL : Fld := ⟨0x34008, 11, 0⟩
/-- ADC_AUXTRIG.MODE: bits [31:31], RW. -/
abbrev ADC_AUXTRIG_MODE : Fld := ⟨0x34040, 31, 31⟩
/-- ADC_AUXTRIG.QUAD: bits [30:29], RW. -/
abbrev ADC_AUXTRIG_QUAD : Fld := ⟨0x34040, 30, 29⟩
/-- ADC_AUXTRIG.EVENT: bits [28:27], RW. -/
abbrev ADC_AUXTRIG_EVENT : Fld := ⟨0x34040, 28, 27⟩
/-- ADC_AUXTRIG.DELAY: bits [26:19], RW. -/
abbrev ADC_AUXTRIG_DELAY : Fld := ⟨0x34040, 26, 19⟩
/-- ADC_AUXTRIG.PHASE: bits [18:8], RW. -/
abbrev ADC_AUXTRIG_PHASE : Fld := ⟨0x34040, 18, 8⟩
/-- ADC_AUXTRIG.PER: bits [7:0], RW. -/
abbrev ADC_AUXTRIG_PER : Fld := ⟨0x34040, 7, 0⟩
/-- ADC_AUX.VALID: bits [31:31], RO. -/
abbrev ADC_AUX_VALID : Fld := ⟨0x34080, 31, 31⟩
/-- ADC_AUX.FAILED: bits [30:30], RO. -/
abbrev ADC_AUX_FAILED : Fld := ⟨0x34080, 30, 30⟩
/-- ADC_AUX.RAW: bits [27:16], RO. -/
abbrev ADC_AUX_RAW : Fld := ⟨0x34080, 27, 16⟩
/-- ADC_AUX.VALUE: bits [11:0], RO. -/
abbrev ADC_AUX_VALUE : Fld := ⟨0x34080, 11, 0⟩
/-- ADC_PHTRIG.EVENT: bits [9:8], RW. -/
abbrev ADC_PHTRIG_EVENT : Fld := ⟨0x340C0, 9, 8⟩
/-- ADC_PHTRIG.DELAY: bits [7:0], RW. -/
abbrev ADC_PHTRIG_DELAY : Fld := ⟨0x340C0, 7, 0⟩
/-- ADC_SPARE.STATE: bits [31:30], RO. -/
abbrev ADC_SPARE_STATE : Fld := ⟨0x34100, 31, 30⟩
/-- ADC_SPARE.SERVES: bits [7:0], RO. -/
abbrev ADC_SPARE_SERVES : Fld := ⟨0x34100, 7, 0⟩
/-- ADC_COEF.GAIN: bits [31:16], RW. -/
abbrev ADC_COEF_GAIN : Fld := ⟨0x34200, 31, 16⟩
/-- ADC_COEF.OFFSET: bits [15:0], RW. -/
abbrev ADC_COEF_OFFSET : Fld := ⟨0x34200, 15, 0⟩
/-- FLT_STATUS.FAULT_PIN: bits [31:31], RO. -/
abbrev FLT_STATUS_FAULT_PIN : Fld := ⟨0x38000, 31, 31⟩
/-- FLT_STATUS.S_PEND: bits [30:30], RO. -/
abbrev FLT_STATUS_S_PEND : Fld := ⟨0x38000, 30, 30⟩
/-- FLT_STATUS.ESCALATED: bits [29:29], W1C. -/
abbrev FLT_STATUS_ESCALATED : Fld := ⟨0x38000, 29, 29⟩
/-- FLT_STATUS.CLR_REFUSED: bits [28:28], W1C. -/
abbrev FLT_STATUS_CLR_REFUSED : Fld := ⟨0x38000, 28, 28⟩
/-- FLT_STATUS.REBUILD: bits [27:27], RO. -/
abbrev FLT_STATUS_REBUILD : Fld := ⟨0x38000, 27, 27⟩
/-- FLT_STATUS.PEND_COUNT: bits [23:16], RO. -/
abbrev FLT_STATUS_PEND_COUNT : Fld := ⟨0x38000, 23, 16⟩
/-- FLT_STATUS.FIRST_SRC: bits [14:8], RO. -/
abbrev FLT_STATUS_FIRST_SRC : Fld := ⟨0x38000, 14, 8⟩
/-- FLT_STATUS.LAST_SRC: bits [6:0], RO. -/
abbrev FLT_STATUS_LAST_SRC : Fld := ⟨0x38000, 6, 0⟩
/-- FLT_CLEAR.INDEX: bits [26:16], WO. -/
abbrev FLT_CLEAR_INDEX : Fld := ⟨0x38004, 26, 16⟩
/-- FLT_CLEAR.SRC: bits [6:0], WO. -/
abbrev FLT_CLEAR_SRC : Fld := ⟨0x38004, 6, 0⟩
/-- FLT_CTL.BRESET: bits [0:0], WO. -/
abbrev FLT_CTL_BRESET : Fld := ⟨0x38008, 0, 0⟩
/-- FLT_PEND.PEND: bits [31:0], RO. -/
abbrev FLT_PEND_PEND : Fld := ⟨0x38010, 31, 0⟩
/-- FLT_ROWS.USED: bits [29:16], RO. -/
abbrev FLT_ROWS_USED : Fld := ⟨0x38040, 29, 16⟩
/-- FLT_ROWS.LEFT: bits [13:0], RO. -/
abbrev FLT_ROWS_LEFT : Fld := ⟨0x38040, 13, 0⟩
/-- FLT_LOGSEL.IDX: bits [5:0], RW. -/
abbrev FLT_LOGSEL_IDX : Fld := ⟨0x38060, 5, 0⟩
/-- FLT_LOGDATA0.VALID: bits [31:31], RO. -/
abbrev FLT_LOGDATA0_VALID : Fld := ⟨0x38064, 31, 31⟩
/-- FLT_LOGDATA0.SRC: bits [30:24], RO. -/
abbrev FLT_LOGDATA0_SRC : Fld := ⟨0x38064, 30, 24⟩
/-- FLT_LOGDATA0.INDEX: bits [10:0], RO. -/
abbrev FLT_LOGDATA0_INDEX : Fld := ⟨0x38064, 10, 0⟩
/-- FLT_LOGDATA1.TIME_US: bits [31:0], RO. -/
abbrev FLT_LOGDATA1_TIME_US : Fld := ⟨0x38068, 31, 0⟩
/-- FLT_LOGDATA2.TICKNO: bits [31:0], RO. -/
abbrev FLT_LOGDATA2_TICKNO : Fld := ⟨0x3806C, 31, 0⟩
/-- FLT_CFG.PAR: bits [31:31], RO. -/
abbrev FLT_CFG_PAR : Fld := ⟨0x38100, 31, 31⟩
/-- FLT_CFG.EN: bits [8:8], RW. -/
abbrev FLT_CFG_EN : Fld := ⟨0x38100, 8, 8⟩
/-- FLT_CFG.REACT: bits [2:0], RW. -/
abbrev FLT_CFG_REACT : Fld := ⟨0x38100, 2, 0⟩
/-- HOOP_STATUS.STATE: bits [31:30], RO. -/
abbrev HOOP_STATUS_STATE : Fld := ⟨0x3C000, 31, 30⟩
/-- HOOP_STATUS.BYP_OPEN: bits [29:29], RO. -/
abbrev HOOP_STATUS_BYP_OPEN : Fld := ⟨0x3C000, 29, 29⟩
/-- HOOP_STATUS.ACT_LANE: bits [28:28], RO. -/
abbrev HOOP_STATUS_ACT_LANE : Fld := ⟨0x3C000, 28, 28⟩
/-- HOOP_STATUS.LANE1_OK: bits [27:27], RO. -/
abbrev HOOP_STATUS_LANE1_OK : Fld := ⟨0x3C000, 27, 27⟩
/-- HOOP_STATUS.LANE0_OK: bits [26:26], RO. -/
abbrev HOOP_STATUS_LANE0_OK : Fld := ⟨0x3C000, 26, 26⟩
/-- HOOP_STATUS.ROLE: bits [25:24], RO. -/
abbrev HOOP_STATUS_ROLE : Fld := ⟨0x3C000, 25, 24⟩
/-- HOOP_STATUS.DUP_ID: bits [4:4], RO. -/
abbrev HOOP_STATUS_DUP_ID : Fld := ⟨0x3C000, 4, 4⟩
/-- HOOP_STATUS.NOTICE: bits [3:3], W1C. -/
abbrev HOOP_STATUS_NOTICE : Fld := ⟨0x3C000, 3, 3⟩
/-- HOOP_STATUS.HOLD: bits [2:2], W1C. -/
abbrev HOOP_STATUS_HOLD : Fld := ⟨0x3C000, 2, 2⟩
/-- HOOP_STATUS.DOWN: bits [1:1], W1C. -/
abbrev HOOP_STATUS_DOWN : Fld := ⟨0x3C000, 1, 1⟩
/-- HOOP_STATUS.LANE_FAIL: bits [0:0], W1C. -/
abbrev HOOP_STATUS_LANE_FAIL : Fld := ⟨0x3C000, 0, 0⟩
/-- HOOP_CFG.MEMBER_ID: bits [29:24], RO. -/
abbrev HOOP_CFG_MEMBER_ID : Fld := ⟨0x3C004, 29, 24⟩
/-- HOOP_CFG.N: bits [22:16], RO. -/
abbrev HOOP_CFG_N : Fld := ⟨0x3C004, 22, 16⟩
/-- HOOP_CFG.ALLOC_ID: bits [13:8], RO. -/
abbrev HOOP_CFG_ALLOC_ID : Fld := ⟨0x3C004, 13, 8⟩
/-- HOOP_CFG.BACKUP_VALID: bits [7:7], RO. -/
abbrev HOOP_CFG_BACKUP_VALID : Fld := ⟨0x3C004, 7, 7⟩
/-- HOOP_CFG.BACKUP_ID: bits [5:0], RO. -/
abbrev HOOP_CFG_BACKUP_ID : Fld := ⟨0x3C004, 5, 0⟩
/-- HOOP_CTL.LEAVE: bits [0:0], RW. -/
abbrev HOOP_CTL_LEAVE : Fld := ⟨0x3C008, 0, 0⟩
/-- HOOP_SHARE.LAST: bits [27:16], RO. -/
abbrev HOOP_SHARE_LAST : Fld := ⟨0x3C00C, 27, 16⟩
/-- HOOP_SHARE.AGE: bits [15:12], RO. -/
abbrev HOOP_SHARE_AGE : Fld := ⟨0x3C00C, 15, 12⟩
/-- HOOP_SHARE.SHARE: bits [11:0], RO. -/
abbrev HOOP_SHARE_SHARE : Fld := ⟨0x3C00C, 11, 0⟩
/-- HOOP_PACE.FOLLOW: bits [31:31], RW. -/
abbrev HOOP_PACE_FOLLOW : Fld := ⟨0x3C010, 31, 31⟩
/-- HOOP_PACE.PGROUP: bits [27:24], RO. -/
abbrev HOOP_PACE_PGROUP : Fld := ⟨0x3C010, 27, 24⟩
/-- HOOP_PACE.PACE_M: bits [23:16], RW. -/
abbrev HOOP_PACE_PACE_M : Fld := ⟨0x3C010, 23, 16⟩
/-- HOOP_PACE.SLOWEST: bits [13:8], RO. -/
abbrev HOOP_PACE_SLOWEST : Fld := ⟨0x3C010, 13, 8⟩
/-- HOOP_PACE.VALID: bits [6:6], RO. -/
abbrev HOOP_PACE_VALID : Fld := ⟨0x3C010, 6, 6⟩
/-- HOOP_PACE.PACE_IDX: bits [5:0], RO. -/
abbrev HOOP_PACE_PACE_IDX : Fld := ⟨0x3C010, 5, 0⟩
/-- HOOP_RATE.SENT: bits [31:16], RO. -/
abbrev HOOP_RATE_SENT : Fld := ⟨0x3C014, 31, 16⟩
/-- HOOP_RATE.MIN: bits [15:0], RO. -/
abbrev HOOP_RATE_MIN : Fld := ⟨0x3C014, 15, 0⟩
/-- HOOP_ALLOC.ENT: bits [15:0], RW. -/
abbrev HOOP_ALLOC_ENT : Fld := ⟨0x3C018, 15, 0⟩
/-- HOOP_STAT.LANE_SW: bits [31:24], RO. -/
abbrev HOOP_STAT_LANE_SW : Fld := ⟨0x3C01C, 31, 24⟩
/-- HOOP_STAT.DROP: bits [23:16], RO. -/
abbrev HOOP_STAT_DROP : Fld := ⟨0x3C01C, 23, 16⟩
/-- HOOP_STAT.RETRY: bits [15:0], RO. -/
abbrev HOOP_STAT_RETRY : Fld := ⟨0x3C01C, 15, 0⟩
/-- HOOP_NOTICE.MEMBER: bits [29:24], RO. -/
abbrev HOOP_NOTICE_MEMBER : Fld := ⟨0x3C020, 29, 24⟩
/-- HOOP_NOTICE.CLASS: bits [23:23], RO. -/
abbrev HOOP_NOTICE_CLASS : Fld := ⟨0x3C020, 23, 23⟩
/-- HOOP_NOTICE.SRC: bits [22:16], RO. -/
abbrev HOOP_NOTICE_SRC : Fld := ⟨0x3C020, 22, 16⟩
/-- HOOP_NOTICE.INSTANCE: bits [10:0], RO. -/
abbrev HOOP_NOTICE_INSTANCE : Fld := ⟨0x3C020, 10, 0⟩
/-- HOOP_SYNC.TICK_OFS: bits [31:16], RO. -/
abbrev HOOP_SYNC_TICK_OFS : Fld := ⟨0x3C024, 31, 16⟩
/-- HOOP_SYNC.CYC_OFS: bits [9:0], RO. -/
abbrev HOOP_SYNC_CYC_OFS : Fld := ⟨0x3C024, 9, 0⟩
/-- HOOP_MEMBER.HEARD: bits [31:31], RO. -/
abbrev HOOP_MEMBER_HEARD : Fld := ⟨0x3C100, 31, 31⟩
/-- HOOP_MEMBER.CAPPED: bits [30:30], RO. -/
abbrev HOOP_MEMBER_CAPPED : Fld := ⟨0x3C100, 30, 30⟩
/-- HOOP_MEMBER.SHARE: bits [27:16], RO. -/
abbrev HOOP_MEMBER_SHARE : Fld := ⟨0x3C100, 27, 16⟩
/-- HOOP_MEMBER.AVG: bits [11:0], RO. -/
abbrev HOOP_MEMBER_AVG : Fld := ⟨0x3C100, 11, 0⟩
/-- PMB_CTL.START: bits [31:31], WO. -/
abbrev PMB_CTL_START : Fld := ⟨0x3E000, 31, 31⟩
/-- PMB_CTL.READ: bits [30:30], RW. -/
abbrev PMB_CTL_READ : Fld := ⟨0x3E000, 30, 30⟩
/-- PMB_CTL.SIZE: bits [29:28], RW. -/
abbrev PMB_CTL_SIZE : Fld := ⟨0x3E000, 29, 28⟩
/-- PMB_CTL.ADDR: bits [22:16], RW. -/
abbrev PMB_CTL_ADDR : Fld := ⟨0x3E000, 22, 16⟩
/-- PMB_CTL.CMD: bits [7:0], RW. -/
abbrev PMB_CTL_CMD : Fld := ⟨0x3E000, 7, 0⟩
/-- PMB_DATA.DATA: bits [15:0], RW. -/
abbrev PMB_DATA_DATA : Fld := ⟨0x3E004, 15, 0⟩
/-- PMB_STATUS.BUSY: bits [31:31], RO. -/
abbrev PMB_STATUS_BUSY : Fld := ⟨0x3E008, 31, 31⟩
/-- PMB_STATUS.REFUSED: bits [30:30], W1C. -/
abbrev PMB_STATUS_REFUSED : Fld := ⟨0x3E008, 30, 30⟩
/-- PMB_STATUS.ERR: bits [29:29], W1C. -/
abbrev PMB_STATUS_ERR : Fld := ⟨0x3E008, 29, 29⟩
/-- PMB_STATUS.ALERT: bits [28:28], W1C. -/
abbrev PMB_STATUS_ALERT : Fld := ⟨0x3E008, 28, 28⟩
/-- PMB_STATUS.ALERT_ADDR: bits [22:16], RO. -/
abbrev PMB_STATUS_ALERT_ADDR : Fld := ⟨0x3E008, 22, 16⟩
/-- PMB_STATUS.DEVICES: bits [3:0], RO. -/
abbrev PMB_STATUS_DEVICES : Fld := ⟨0x3E008, 3, 0⟩
/-- PMB_DEV.PRESENT: bits [31:31], RO. -/
abbrev PMB_DEV_PRESENT : Fld := ⟨0x3E040, 31, 31⟩
/-- PMB_DEV.FAILED: bits [30:30], RO. -/
abbrev PMB_DEV_FAILED : Fld := ⟨0x3E040, 30, 30⟩
/-- PMB_DEV.UNSUPPORTED: bits [29:29], RO. -/
abbrev PMB_DEV_UNSUPPORTED : Fld := ⟨0x3E040, 29, 29⟩
/-- PMB_DEV.ADDR: bits [22:16], RO. -/
abbrev PMB_DEV_ADDR : Fld := ⟨0x3E040, 22, 16⟩
/-- PMB_DEV.STATUS: bits [15:0], RO. -/
abbrev PMB_DEV_STATUS : Fld := ⟨0x3E040, 15, 0⟩
/-- PMB_READ.IOUT: bits [31:16], RO. -/
abbrev PMB_READ_IOUT : Fld := ⟨0x3E060, 31, 16⟩
/-- PMB_READ.VOUT: bits [15:0], RO. -/
abbrev PMB_READ_VOUT : Fld := ⟨0x3E060, 15, 0⟩

/-- Spare rows of memory m (Table 13-6). -/
def spareRows (m : Nat) : Nat := [82, 656, 1311, 328, 2622, 10486].getD m 0

/-- The default reaction of each defined fault source (Table 13-1), as (source number, REACT code). -/
def fltDefaults : List (Nat × Nat) :=
  [(0, 4), (1, 4), (2, 4), (3, 1), (4, 1), (5, 1), (8, 1), (9, 1), (10, 1), (11, 1),
   (12, 1), (13, 1), (14, 1), (15, 0), (16, 1), (17, 1), (18, 1), (19, 1), (20, 1), (21, 0),
   (22, 0), (23, 1), (24, 1), (25, 1), (26, 1), (27, 1), (28, 1), (32, 2), (33, 1), (34, 1),
   (35, 1), (36, 0), (40, 4), (41, 1), (42, 1), (43, 1), (44, 1), (45, 1), (46, 1), (47, 1),
   (48, 1), (49, 3), (50, 0), (51, 1), (52, 3), (53, 1), (54, 0), (55, 0), (56, 1), (57, 3),
   (58, 1), (59, 1), (64, 1), (65, 1), (66, 1), (67, 0), (68, 0), (69, 1), (70, 1), (72, 1),
   (73, 2), (74, 1), (75, 1), (76, 1), (77, 1), (80, 1), (81, 1), (82, 0), (83, 1), (84, 0)]

/-- The reset word of FLT_CFG[s] (Table 17-13): EN = 1, the default reaction, and PAR under R496; a reserved
source number reads 0 (R400). -/
def fltCfgReset (s : Nat) : Word :=
  match fltDefaults.find? (fun e => e.1 == s) with
  | none => 0
  | some e =>
    let w : Word := BitVec.ofNat 32 (0x100 + e.2)
    if parity w then w ||| 0x80000000 else w

/-- CFG_ID. -/
def def_CFG_ID : RegDef :=
  ⟨0x0, 1, 0xFFFFFFFF, 0x0, 0x0, 0x0, 0x0, fun _ => 0xA170100⟩
/-- CFG_CHIPID_LO. -/
def def_CFG_CHIPID_LO : RegDef :=
  ⟨0x4, 1, 0xFFFFFFFF, 0x0, 0x0, 0x0, 0x0, fun _ => BitVec.ofNat 32 Config.chipId.toNat⟩
/-- CFG_CHIPID_HI. -/
def def_CFG_CHIPID_HI : RegDef :=
  ⟨0x8, 1, 0xFFFFFFFF, 0x0, 0x0, 0x0, 0x0, fun _ => BitVec.ofNat 32 (Config.chipId.toNat / 2 ^ 32)⟩
/-- CFG_PORT_STATUS. -/
def def_CFG_PORT_STATUS : RegDef :=
  ⟨0x40, 1, 0x0, 0x0, 0xF, 0x0, 0x0, fun _ => 0x0⟩
/-- CFG_STRAP. -/
def def_CFG_STRAP : RegDef :=
  ⟨0x44, 1, 0x103, 0x0, 0x0, 0x0, 0x0, fun _ => 0x0⟩
/-- IMG_STATUS. -/
def def_IMG_STATUS : RegDef :=
  ⟨0x80, 1, 0xFFFF9FFF, 0x0, 0x6000, 0x0, 0x0, fun _ => if Config.trustReq then 0x00080000 else 0⟩
/-- IMG_CTL. -/
def def_IMG_CTL : RegDef :=
  ⟨0x84, 1, 0xFFF0000, 0x1, 0x0, 0x0, 0x80000000, fun _ => BitVec.ofNat 32 (Config.safeVcode.toNat * 2 ^ 16)⟩
/-- IMG_SECT. -/
def def_IMG_SECT : RegDef :=
  ⟨0x88, 1, 0x7FFFFFF, 0x0, 0x0, 0x0, 0x0, fun _ => 0x0⟩
/-- IMG_GEN. -/
def def_IMG_GEN : RegDef :=
  ⟨0x8C, 1, 0xFFFFFFFF, 0x0, 0x0, 0x0, 0x0, fun _ => 0⟩
/-- IMG_DIGEST. -/
def def_IMG_DIGEST : RegDef :=
  ⟨0xA0, 8, 0xFFFFFFFF, 0x0, 0x0, 0x0, 0x0, fun _ => 0x0⟩
/-- IMG_AUTHSEL. -/
def def_IMG_AUTHSEL : RegDef :=
  ⟨0xC0, 1, 0x7FF0000, 0xFF, 0x0, 0x0, 0x0, fun _ => 0x0⟩
/-- IMG_AUTHDATA. -/
def def_IMG_AUTHDATA : RegDef :=
  ⟨0xC4, 1, 0xFFFFFFFF, 0x0, 0x0, 0x0, 0x0, fun _ => 0x0⟩
/-- IMG_JRNL. -/
def def_IMG_JRNL : RegDef :=
  ⟨0xD0, 1, 0x88FFF000, 0x0, 0x70000000, 0x0, 0x0, fun _ => 0x0⟩
/-- IMG_JSEQ. -/
def def_IMG_JSEQ : RegDef :=
  ⟨0xD4, 1, 0xFFFFFFFF, 0x0, 0x0, 0x0, 0x0, fun _ => 0x0⟩
/-- IMG_RCADDR. -/
def def_IMG_RCADDR : RegDef :=
  ⟨0xE0, 1, 0x0, 0x1FFFF, 0x0, 0x0, 0x0, fun _ => 0x0⟩
/-- IMG_RCDATA. -/
def def_IMG_RCDATA : RegDef :=
  ⟨0xE4, 1, 0x0, 0x0, 0x0, 0x0, 0xFFFF, fun _ => 0x0⟩
/-- REG_VSET. -/
def def_REG_VSET : RegDef :=
  ⟨0x1000, 256, 0xFFF0FFF, 0x0, 0x0, 0x0, 0x0, fun _ => 0x0⟩
/-- REG_VSENSE. -/
def def_REG_VSENSE : RegDef :=
  ⟨0x1400, 256, 0xFFFFFF3F, 0x0, 0x0, 0x0, 0x0, fun _ => 0x20⟩
/-- REG_STATUS. -/
def def_REG_STATUS : RegDef :=
  ⟨0x1800, 256, 0xBFFE0000, 0x0, 0x40010000, 0x0, 0x0, fun _ => 0x0⟩
/-- REG_DROOP. -/
def def_REG_DROOP : RegDef :=
  ⟨0x1C00, 256, 0x0, 0x3F, 0x0, 0x0, 0x0, fun _ => 0x14⟩
/-- REG_DROOPCNT. -/
def def_REG_DROOPCNT : RegDef :=
  ⟨0x2000, 256, 0xFFFF003F, 0x0, 0x0, 0x0, 0x0, fun _ => 0x20⟩
/-- REG_SENSE_CFG. -/
def def_REG_SENSE_CFG : RegDef :=
  ⟨0x2400, 256, 0x0, 0x11F, 0x0, 0x0, 0x0, fun _ => 0x10F⟩
/-- REG_FIDX. -/
def def_REG_FIDX : RegDef :=
  ⟨0x2800, 256, 0x3F3F3F03, 0x0, 0x0, 0x0, 0x0, fun _ => 0x0⟩
/-- REG_PSTATE. -/
def def_REG_PSTATE : RegDef :=
  ⟨0x2C00, 256, 0xF3F0F3F, 0x0, 0xC00000, 0x0, 0x0, fun _ => 0x0⟩
/-- REG_PCTL. -/
def def_REG_PCTL : RegDef :=
  ⟨0x3000, 256, 0x0, 0x1F0FFF, 0x0, 0x0, 0x0, fun _ => 0x5044C⟩
/-- REG_GROUP. -/
def def_REG_GROUP : RegDef :=
  ⟨0x3400, 256, 0x0, 0x8000001F, 0x0, 0x0, 0x0, fun _ => 0x0⟩
/-- REG_GLAT. -/
def def_REG_GLAT : RegDef :=
  ⟨0x3800, 32, 0x30000, 0x8F00FFFF, 0x0, 0x0, 0x0, fun _ => 0x84000000⟩
/-- REG_GSLEEP. -/
def def_REG_GSLEEP : RegDef :=
  ⟨0x3880, 32, 0x0, 0x0, 0x10000000, 0x0, 0xE0000000, fun _ => 0x0⟩
/-- REG_GHINT. -/
def def_REG_GHINT : RegDef :=
  ⟨0x3900, 32, 0x1FFFFFFF, 0x0, 0x0, 0x0, 0x0, fun _ => 0x8000⟩
/-- REG_SELECT. -/
def def_REG_SELECT : RegDef :=
  ⟨0x3C00, 256, 0xFFFF00FF, 0x0, 0x0, 0x0, 0x0, fun _ => 0x0⟩
/-- REG_CONFLICT. -/
def def_REG_CONFLICT : RegDef :=
  ⟨0x4000, 256, 0xFFFFFFFF, 0x0, 0x0, 0x0, 0x0, fun _ => 0x0⟩
/-- REG_FCAST. -/
def def_REG_FCAST : RegDef :=
  ⟨0x4400, 256, 0xFFFFFFFF, 0x0, 0x0, 0x0, 0x0, fun _ => 0x0⟩
/-- PH_STATE. -/
def def_PH_STATE : RegDef :=
  ⟨0x8000, 1088, 0x8F3FFFFF, 0x0, 0x0, 0x0, 0x0, fun p => if p < 1024 then BitVec.ofNat 32 (p * 0x800) else 0x003FF800⟩
/-- PH_CURRENT. -/
def def_PH_CURRENT : RegDef :=
  ⟨0x9100, 1088, 0xFFFFFFFF, 0x0, 0x0, 0x0, 0x0, fun _ => 0x0⟩
/-- PH_WEAR. -/
def def_PH_WEAR : RegDef :=
  ⟨0xA200, 1088, 0xFFFFFFFF, 0x0, 0x0, 0x0, 0x0, fun _ => 0x10000000⟩
/-- PH_CAL. -/
def def_PH_CAL : RegDef :=
  ⟨0xB300, 1088, 0xFFF3FF, 0x0, 0x0, 0x0, 0x0, fun _ => 0x0⟩
/-- WV_PLAIT. -/
def def_WV_PLAIT : RegDef :=
  ⟨0xC400, 16, 0x0, 0xF8F, 0x0, 0x0, 0x0, fun _ => 0x386⟩
/-- WV_POOL. -/
def def_WV_POOL : RegDef :=
  ⟨0xC440, 16, 0x7FF, 0x0, 0x0, 0x0, 0x0, fun _ => 0xFF⟩
/-- WV_SWAP. -/
def def_WV_SWAP : RegDef :=
  ⟨0xC480, 16, 0x3800007F, 0x7FF0000, 0x40000000, 0xFF00, 0x80000000, fun _ => 0x0⟩
/-- WV_LIMCNT. -/
def def_WV_LIMCNT : RegDef :=
  ⟨0xC4C0, 16, 0xFFFFFFFF, 0x0, 0x0, 0x0, 0x0, fun _ => 0x0⟩
/-- WV_WEAR_CFG. -/
def def_WV_WEAR_CFG : RegDef :=
  ⟨0xC500, 1, 0x0, 0xFFFF, 0x0, 0x0, 0x0, fun _ => 0x144D⟩
/-- WV_LOOP. -/
def def_WV_LOOP : RegDef :=
  ⟨0xC540, 16, 0x0, 0x1F3F, 0x0, 0x0, 0x0, fun _ => 0x100A⟩
/-- WV_COMP. -/
def def_WV_COMP : RegDef :=
  ⟨0xC580, 16, 0x0, 0xFFFFFF00, 0x0, 0x0, 0x0, fun _ => 0x20081800⟩
/-- WV_DAWN. -/
def def_WV_DAWN : RegDef :=
  ⟨0xC5C0, 16, 0x0, 0xFF00FF, 0x0, 0x0, 0x0, fun _ => 0x14⟩
/-- ENG_STATUS. -/
def def_ENG_STATUS : RegDef :=
  ⟨0x10000, 1, 0xF7030000, 0x0, 0x0, 0x0, 0x0, fun _ => 0x0⟩
/-- ENG_CTL. -/
def def_ENG_CTL : RegDef :=
  ⟨0x10004, 1, 0x0, 0x1, 0x0, 0x0, 0x0, fun _ => 0x0⟩
/-- ENG_DEADLINE_MISS. -/
def def_ENG_DEADLINE_MISS : RegDef :=
  ⟨0x10008, 1, 0xFFFF, 0x0, 0x80000000, 0x0, 0x0, fun _ => 0x0⟩
/-- ENG_FLAGS. -/
def def_ENG_FLAGS : RegDef :=
  ⟨0x1000C, 1, 0x0, 0x0, 0x3F, 0x0, 0x0, fun _ => 0x0⟩
/-- ENG_TICKNO_LO. -/
def def_ENG_TICKNO_LO : RegDef :=
  ⟨0x10010, 1, 0xFFFFFFFF, 0x0, 0x0, 0x0, 0x0, fun _ => 0x0⟩
/-- ENG_TICKNO_HI. -/
def def_ENG_TICKNO_HI : RegDef :=
  ⟨0x10014, 1, 0xFFFFFFFF, 0x0, 0x0, 0x0, 0x0, fun _ => 0⟩
/-- ENG_CYCLES. -/
def def_ENG_CYCLES : RegDef :=
  ⟨0x10018, 1, 0x3FFFFFFF, 0x0, 0x0, 0x0, 0x0, fun _ => 0x0⟩
/-- ENG_STALL. -/
def def_ENG_STALL : RegDef :=
  ⟨0x1001C, 1, 0xFFFF, 0x0, 0x0, 0x0, 0x0, fun _ => 0x0⟩
/-- ENG_ECC. -/
def def_ENG_ECC : RegDef :=
  ⟨0x10020, 1, 0xFFFF0700, 0x0, 0x0, 0x0, 0x0, fun _ => 0x0⟩
/-- ENG_ARRAY. -/
def def_ENG_ARRAY : RegDef :=
  ⟨0x10024, 1, 0x7073FF, 0x0, 0x0, 0x0, 0x0, fun _ => 0x7073FF⟩
/-- ENG_MADDR. -/
def def_ENG_MADDR : RegDef :=
  ⟨0x10028, 1, 0x10000000, 0xE001FFFF, 0x0, 0x0, 0x0, fun _ => 0x0⟩
/-- ENG_MDATA. -/
def def_ENG_MDATA : RegDef :=
  ⟨0x1002C, 4, 0x0, 0xFFFFFFFF, 0x0, 0x0, 0x0, fun _ => 0x0⟩
/-- ENG_ARITH. -/
def def_ENG_ARITH : RegDef :=
  ⟨0x1003C, 1, 0x0, 0x0, 0xFF, 0x0, 0x0, fun _ => 0x0⟩
/-- ENG_HINTSTAT. -/
def def_ENG_HINTSTAT : RegDef :=
  ⟨0x10040, 1, 0xFFFFFF, 0x0, 0x0, 0x0, 0x0, fun _ => 0x0⟩
/-- ENG_PRED. -/
def def_ENG_PRED : RegDef :=
  ⟨0x10044, 1, 0x1, 0x0, 0x0, 0x0, 0x0, fun _ => 0x0⟩
/-- TRC_STATUS. -/
def def_TRC_STATUS : RegDef :=
  ⟨0x10100, 1, 0xC20FFFFF, 0x0, 0x3C000000, 0x0, 0x0, fun _ => 0x0⟩
/-- TRC_CTL. -/
def def_TRC_CTL : RegDef :=
  ⟨0x10104, 1, 0x0, 0xE0000000, 0x0, 0x10000000, 0x1, fun _ => 0x0⟩
/-- TRC_CFG. -/
def def_TRC_CFG : RegDef :=
  ⟨0x10108, 1, 0x0, 0xFFFFFF1F, 0x0, 0x0, 0x0, fun _ => 0x110001F⟩
/-- TRC_SEED_LO. -/
def def_TRC_SEED_LO : RegDef :=
  ⟨0x1010C, 1, 0x0, 0xFFFFFFFF, 0x0, 0x0, 0x0, fun _ => 0x0⟩
/-- TRC_SEED_HI. -/
def def_TRC_SEED_HI : RegDef :=
  ⟨0x10110, 1, 0x0, 0xFFFFFFFF, 0x0, 0x0, 0x0, fun _ => 0x0⟩
/-- TRC_EXP_BASE_LO. -/
def def_TRC_EXP_BASE_LO : RegDef :=
  ⟨0x10114, 1, 0x0, 0xFFFFF000, 0x0, 0x0, 0x0, fun _ => 0x0⟩
/-- TRC_EXP_BASE_HI. -/
def def_TRC_EXP_BASE_HI : RegDef :=
  ⟨0x10118, 1, 0x0, 0x3FFF, 0x0, 0x0, 0x0, fun _ => 0x1000⟩
/-- TRC_EXP_WPTR. -/
def def_TRC_EXP_WPTR : RegDef :=
  ⟨0x1011C, 1, 0xFFFFFFFF, 0x0, 0x0, 0x0, 0x0, fun _ => 0x0⟩
/-- TRC_EXP_RPTR. -/
def def_TRC_EXP_RPTR : RegDef :=
  ⟨0x10120, 1, 0x0, 0xFFFFFFFF, 0x0, 0x0, 0x0, fun _ => 0x0⟩
/-- TRC_TICKSET_LO. -/
def def_TRC_TICKSET_LO : RegDef :=
  ⟨0x10124, 1, 0x0, 0x0, 0x0, 0x0, 0xFFFFFFFF, fun _ => 0x0⟩
/-- TRC_TICKSET_HI. -/
def def_TRC_TICKSET_HI : RegDef :=
  ⟨0x10128, 1, 0x0, 0x0, 0x0, 0x0, 0xFFFFFFFF, fun _ => 0x0⟩
/-- TRC_REPLAY. -/
def def_TRC_REPLAY : RegDef :=
  ⟨0x1012C, 1, 0x40000000, 0x0, 0x10000000, 0x2FFFFFFF, 0x80000000, fun _ => 0x0⟩
/-- TRC_SIG. -/
def def_TRC_SIG : RegDef :=
  ⟨0x10130, 1, 0xFFFFFFFF, 0x0, 0x0, 0x0, 0x0, fun _ => 0x0⟩
/-- TRC_FLAGS. -/
def def_TRC_FLAGS : RegDef :=
  ⟨0x10134, 1, 0x0, 0xFF, 0x0, 0x0, 0x0, fun _ => 0x0⟩
/-- PWR_STATUS. -/
def def_PWR_STATUS : RegDef :=
  ⟨0x20000, 1, 0xFF08, 0x0, 0x17, 0x0, 0x0, fun _ => 0xFF00⟩
/-- PWR_CAP_FAST. -/
def def_PWR_CAP_FAST : RegDef :=
  ⟨0x20004, 1, 0x0, 0xFFF, 0x0, 0x0, 0x0, fun _ => 0x0⟩
/-- PWR_CAP_SLOW. -/
def def_PWR_CAP_SLOW : RegDef :=
  ⟨0x20008, 1, 0x1FFE000, 0xFE000FFF, 0x0, 0x0, 0x0, fun _ => 0x14000000⟩
/-- PWR_CAP_CFG. -/
def def_PWR_CAP_CFG : RegDef :=
  ⟨0x2000C, 1, 0x0, 0xFFFF0FFF, 0x0, 0x0, 0x0, fun _ => 0x10200000⟩
/-- PWR_SLOPE. -/
def def_PWR_SLOPE : RegDef :=
  ⟨0x20010, 1, 0x0, 0x1FF3F3F, 0x0, 0x0, 0x0, fun _ => 0x1080808⟩
/-- PWR_CORR. -/
def def_PWR_CORR : RegDef :=
  ⟨0x20014, 1, 0x0, 0xFFFF, 0x0, 0x0, 0x0, fun _ => 0x190A⟩
/-- PWR_CHIP. -/
def def_PWR_CHIP : RegDef :=
  ⟨0x20018, 1, 0xFFFFFFFF, 0x0, 0x0, 0x0, 0x0, fun _ => 0x0⟩
/-- PWR_AVG. -/
def def_PWR_AVG : RegDef :=
  ⟨0x2001C, 1, 0xFFFFFFFF, 0x0, 0x0, 0x0, 0x0, fun _ => 0xFFFF0000⟩
/-- PWR_E_CHIP. -/
def def_PWR_E_CHIP : RegDef :=
  ⟨0x20020, 2, 0x0, 0x0, 0x0, 0xFFFFFFFF, 0x0, fun _ => 0⟩
/-- PWR_E_UNATTR. -/
def def_PWR_E_UNATTR : RegDef :=
  ⟨0x20028, 2, 0x0, 0x0, 0x0, 0xFFFFFFFF, 0x0, fun _ => 0⟩
/-- PWR_FEAT. -/
def def_PWR_FEAT : RegDef :=
  ⟨0x20040, 8, 0x0, 0xF0FFF, 0x0, 0x0, 0x0, fun j => BitVec.ofNat 32 (j * 0x10000 + 0x40)⟩
/-- PWR_PMAP. -/
def def_PWR_PMAP : RegDef :=
  ⟨0x20100, 64, 0x0, 0xFFFFFFFF, 0x0, 0x0, 0x0, fun _ => 0x0⟩
/-- PWR_QMAP. -/
def def_PWR_QMAP : RegDef :=
  ⟨0x20200, 64, 0x0, 0x800000FF, 0x0, 0x0, 0x0, fun _ => 0x0⟩
/-- PWR_PREF. -/
def def_PWR_PREF : RegDef :=
  ⟨0x20300, 127, 0x0, 0x3F0FFF, 0x0, 0x0, 0x0, fun _ => 0x3F0834⟩
/-- PWR_REGION. -/
def def_PWR_REGION : RegDef :=
  ⟨0x20800, 256, 0xFFFFFFFF, 0x0, 0x0, 0x0, 0x0, fun _ => 0x0⟩
/-- PWR_LKG. -/
def def_PWR_LKG : RegDef :=
  ⟨0x20C00, 256, 0x0, 0xFFFF, 0x0, 0x0, 0x0, fun _ => 0x0⟩
/-- PWR_EWT. -/
def def_PWR_EWT : RegDef :=
  ⟨0x21000, 1024, 0x0, 0xFFFF, 0x0, 0x0, 0x0, fun _ => 0x0⟩
/-- PWR_E_PART. -/
def def_PWR_E_PART : RegDef :=
  ⟨0x22000, 128, 0x0, 0x0, 0x0, 0xFFFFFFFF, 0x0, fun _ => 0⟩
/-- PWR_E_QUEUE. -/
def def_PWR_E_QUEUE : RegDef :=
  ⟨0x22200, 512, 0x0, 0x0, 0x0, 0xFFFFFFFF, 0x0, fun _ => 0⟩
/-- THM_STATUS. -/
def def_THM_STATUS : RegDef :=
  ⟨0x28000, 1, 0xFF03A1, 0x0, 0x5E, 0x0, 0x0, fun _ => 0x0⟩
/-- THM_THR. -/
def def_THM_THR : RegDef :=
  ⟨0x28004, 1, 0x0, 0xFFFFFFFF, 0x0, 0x0, 0x0, fun _ => 0x1010695F⟩
/-- THM_CFG. -/
def def_THM_CFG : RegDef :=
  ⟨0x28008, 1, 0x0, 0xFFFFFF, 0x0, 0x0, 0x0, fun _ => 0x100214⟩
/-- THM_TRIP. -/
def def_THM_TRIP : RegDef :=
  ⟨0x2800C, 1, 0xFF, 0x0, 0x0, 0x0, 0x0, fun _ => 0x73⟩
/-- THM_TEMP. -/
def def_THM_TEMP : RegDef :=
  ⟨0x28100, 256, 0xFBFF0FFF, 0x0, 0x0, 0x0, 0x0, fun _ => 0x0⟩
/-- THM_SENSOR. -/
def def_THM_SENSOR : RegDef :=
  ⟨0x28500, 272, 0xC000FFFF, 0x0, 0x0, 0x0, 0x0, fun _ => 0x0⟩
/-- THM_SPARE. -/
def def_THM_SPARE : RegDef :=
  ⟨0x28A00, 16, 0xC0FF0FFF, 0x0, 0x0, 0x0, 0x0, fun _ => 0x0⟩
/-- CLK_STATUS. -/
def def_CLK_STATUS : RegDef :=
  ⟨0x30000, 1, 0xFF0000FF, 0x0, 0x0, 0x0, 0x0, fun _ => 0x1⟩
/-- CLK_CTL. -/
def def_CLK_CTL : RegDef :=
  ⟨0x30004, 1, 0x0, 0x100, 0x0, 0x0, 0x3, fun _ => 0x100⟩
/-- CLK_GATE. -/
def def_CLK_GATE : RegDef :=
  ⟨0x30008, 1, 0x0, 0x7FFF, 0x0, 0x0, 0x0, fun _ => 0x36FB⟩
/-- CLK_XCFG. -/
def def_CLK_XCFG : RegDef :=
  ⟨0x3000C, 1, 0xFFFF, 0xFFFF0000, 0x0, 0x0, 0x0, fun _ => BitVec.ofNat 32 Config.xa10k.toNat⟩
/-- CLK_SSC. -/
def def_CLK_SSC : RegDef :=
  ⟨0x30010, 1, 0x0, 0x1F1F, 0x0, 0x0, 0x0, fun _ => 0x0⟩
/-- CLK_PSYNC. -/
def def_CLK_PSYNC : RegDef :=
  ⟨0x30014, 1, 0x1F0000, 0x800000FF, 0x40000000, 0x0, 0x0, fun _ => 0x0⟩
/-- CLK_MON. -/
def def_CLK_MON : RegDef :=
  ⟨0x30018, 1, 0x0, 0x0, 0x7FF, 0x0, 0x0, fun _ => 0x0⟩
/-- CLK_FAILOVER. -/
def def_CLK_FAILOVER : RegDef :=
  ⟨0x3001C, 1, 0xFFFF, 0x0, 0x0, 0xFF000000, 0x0, fun _ => 0x0⟩
/-- ADC_STATUS. -/
def def_ADC_STATUS : RegDef :=
  ⟨0x34000, 1, 0xC00F, 0x0, 0x3F80, 0x0, 0x0, fun _ => 0x0⟩
/-- ADC_REF. -/
def def_ADC_REF : RegDef :=
  ⟨0x34004, 1, 0x0, 0x7FF00FF, 0x0, 0x0, 0x0, fun _ => 0x4B00000⟩
/-- ADC_CAL_CTL. -/
def def_ADC_CAL_CTL : RegDef :=
  ⟨0x34008, 1, 0x28000000, 0x40000FFF, 0x17000000, 0x0, 0x80000000, fun _ => 0x7D0⟩
/-- ADC_AUXTRIG. -/
def def_ADC_AUXTRIG : RegDef :=
  ⟨0x34040, 16, 0x0, 0xFFFFFFFF, 0x0, 0x0, 0x0, fun _ => 0xF⟩
/-- ADC_AUX. -/
def def_ADC_AUX : RegDef :=
  ⟨0x34080, 16, 0xCFFF0FFF, 0x0, 0x0, 0x0, 0x0, fun _ => 0x0⟩
/-- ADC_PHTRIG. -/
def def_ADC_PHTRIG : RegDef :=
  ⟨0x340C0, 1, 0x0, 0x3FF, 0x0, 0x0, 0x0, fun _ => 0x202⟩
/-- ADC_SPARE. -/
def def_ADC_SPARE : RegDef :=
  ⟨0x34100, 16, 0xC00000FF, 0x0, 0x0, 0x0, 0x0, fun _ => 0x0⟩
/-- ADC_COEF. -/
def def_ADC_COEF : RegDef :=
  ⟨0x34200, 288, 0x0, 0xFFFFFFFF, 0x0, 0x0, 0x0, fun _ => 0x80000000⟩
/-- FLT_STATUS. -/
def def_FLT_STATUS : RegDef :=
  ⟨0x38000, 1, 0xC8FF7F7F, 0x0, 0x30000000, 0x0, 0x0, fun _ => 0x0⟩
/-- FLT_CLEAR. -/
def def_FLT_CLEAR : RegDef :=
  ⟨0x38004, 1, 0x0, 0x0, 0x0, 0x0, 0x7FF007F, fun _ => 0⟩
/-- FLT_CTL. -/
def def_FLT_CTL : RegDef :=
  ⟨0x38008, 1, 0x0, 0x0, 0x0, 0x0, 0x1, fun _ => 0x0⟩
/-- FLT_PEND. -/
def def_FLT_PEND : RegDef :=
  ⟨0x38010, 4, 0xFFFFFFFF, 0x0, 0x0, 0x0, 0x0, fun _ => 0x0⟩
/-- FLT_ROWS. -/
def def_FLT_ROWS : RegDef :=
  ⟨0x38040, 6, 0x3FFF3FFF, 0x0, 0x0, 0x0, 0x0, fun m => BitVec.ofNat 32 (spareRows m)⟩
/-- FLT_LOGSEL. -/
def def_FLT_LOGSEL : RegDef :=
  ⟨0x38060, 1, 0x0, 0x3F, 0x0, 0x0, 0x0, fun _ => 0x0⟩
/-- FLT_LOGDATA0. -/
def def_FLT_LOGDATA0 : RegDef :=
  ⟨0x38064, 1, 0xFF0007FF, 0x0, 0x0, 0x0, 0x0, fun _ => 0⟩
/-- FLT_LOGDATA1. -/
def def_FLT_LOGDATA1 : RegDef :=
  ⟨0x38068, 1, 0xFFFFFFFF, 0x0, 0x0, 0x0, 0x0, fun _ => 0⟩
/-- FLT_LOGDATA2. -/
def def_FLT_LOGDATA2 : RegDef :=
  ⟨0x3806C, 1, 0xFFFFFFFF, 0x0, 0x0, 0x0, 0x0, fun _ => 0⟩
/-- FLT_CFG. -/
def def_FLT_CFG : RegDef :=
  ⟨0x38100, 128, 0x80000000, 0x107, 0x0, 0x0, 0x0, fltCfgReset⟩
/-- HOOP_STATUS. -/
def def_HOOP_STATUS : RegDef :=
  ⟨0x3C000, 1, 0xFF000010, 0x0, 0xF, 0x0, 0x0, fun _ => 0x0⟩
/-- HOOP_CFG. -/
def def_HOOP_CFG : RegDef :=
  ⟨0x3C004, 1, 0x3F7F3FBF, 0x0, 0x0, 0x0, 0x0, fun _ => 0x0⟩
/-- HOOP_CTL. -/
def def_HOOP_CTL : RegDef :=
  ⟨0x3C008, 1, 0x0, 0x1, 0x0, 0x0, 0x0, fun _ => 0x0⟩
/-- HOOP_SHARE. -/
def def_HOOP_SHARE : RegDef :=
  ⟨0x3C00C, 1, 0xFFFFFFF, 0x0, 0x0, 0x0, 0x0, fun _ => 0x0⟩
/-- HOOP_PACE. -/
def def_HOOP_PACE : RegDef :=
  ⟨0x3C010, 1, 0xF003F7F, 0x80FF0000, 0x0, 0x0, 0x0, fun _ => 0x8003F⟩
/-- HOOP_RATE. -/
def def_HOOP_RATE : RegDef :=
  ⟨0x3C014, 1, 0xFFFFFFFF, 0x0, 0x0, 0x0, 0x0, fun _ => 0xFFFFFFFF⟩
/-- HOOP_ALLOC. -/
def def_HOOP_ALLOC : RegDef :=
  ⟨0x3C018, 1, 0x0, 0xFFFF, 0x0, 0x0, 0x0, fun _ => 0x0⟩
/-- HOOP_STAT. -/
def def_HOOP_STAT : RegDef :=
  ⟨0x3C01C, 1, 0xFFFFFFFF, 0x0, 0x0, 0x0, 0x0, fun _ => 0x0⟩
/-- HOOP_NOTICE. -/
def def_HOOP_NOTICE : RegDef :=
  ⟨0x3C020, 1, 0x3FFF07FF, 0x0, 0x0, 0x0, 0x0, fun _ => 0x0⟩
/-- HOOP_SYNC. -/
def def_HOOP_SYNC : RegDef :=
  ⟨0x3C024, 1, 0xFFFF03FF, 0x0, 0x0, 0x0, 0x0, fun _ => 0x0⟩
/-- HOOP_MEMBER. -/
def def_HOOP_MEMBER : RegDef :=
  ⟨0x3C100, 64, 0xCFFF0FFF, 0x0, 0x0, 0x0, 0x0, fun _ => 0x0⟩
/-- PMB_CTL. -/
def def_PMB_CTL : RegDef :=
  ⟨0x3E000, 1, 0x0, 0x707F00FF, 0x0, 0x0, 0x80000000, fun _ => 0x20000000⟩
/-- PMB_DATA. -/
def def_PMB_DATA : RegDef :=
  ⟨0x3E004, 1, 0x0, 0xFFFF, 0x0, 0x0, 0x0, fun _ => 0x0⟩
/-- PMB_STATUS. -/
def def_PMB_STATUS : RegDef :=
  ⟨0x3E008, 1, 0x807F000F, 0x0, 0x70000000, 0x0, 0x0, fun _ => 0x0⟩
/-- PMB_DEV. -/
def def_PMB_DEV : RegDef :=
  ⟨0x3E040, 8, 0xE07FFFFF, 0x0, 0x0, 0x0, 0x0, fun _ => 0x0⟩
/-- PMB_READ. -/
def def_PMB_READ : RegDef :=
  ⟨0x3E060, 8, 0xFFFFFFFF, 0x0, 0x0, 0x0, 0x0, fun _ => 0x0⟩

/-- Every register of the window, in address order (R494). -/
def regTable : List RegDef :=
  [def_CFG_ID, def_CFG_CHIPID_LO, def_CFG_CHIPID_HI, def_CFG_PORT_STATUS, def_CFG_STRAP,
   def_IMG_STATUS, def_IMG_CTL, def_IMG_SECT, def_IMG_GEN, def_IMG_DIGEST,
   def_IMG_AUTHSEL, def_IMG_AUTHDATA, def_IMG_JRNL, def_IMG_JSEQ, def_IMG_RCADDR,
   def_IMG_RCDATA, def_REG_VSET, def_REG_VSENSE, def_REG_STATUS, def_REG_DROOP,
   def_REG_DROOPCNT, def_REG_SENSE_CFG, def_REG_FIDX, def_REG_PSTATE, def_REG_PCTL,
   def_REG_GROUP, def_REG_GLAT, def_REG_GSLEEP, def_REG_GHINT, def_REG_SELECT] ++
  [def_REG_CONFLICT, def_REG_FCAST, def_PH_STATE, def_PH_CURRENT, def_PH_WEAR,
   def_PH_CAL, def_WV_PLAIT, def_WV_POOL, def_WV_SWAP, def_WV_LIMCNT,
   def_WV_WEAR_CFG, def_WV_LOOP, def_WV_COMP, def_WV_DAWN, def_ENG_STATUS,
   def_ENG_CTL, def_ENG_DEADLINE_MISS, def_ENG_FLAGS, def_ENG_TICKNO_LO, def_ENG_TICKNO_HI,
   def_ENG_CYCLES, def_ENG_STALL, def_ENG_ECC, def_ENG_ARRAY, def_ENG_MADDR,
   def_ENG_MDATA, def_ENG_ARITH, def_ENG_HINTSTAT, def_ENG_PRED, def_TRC_STATUS] ++
  [def_TRC_CTL, def_TRC_CFG, def_TRC_SEED_LO, def_TRC_SEED_HI, def_TRC_EXP_BASE_LO,
   def_TRC_EXP_BASE_HI, def_TRC_EXP_WPTR, def_TRC_EXP_RPTR, def_TRC_TICKSET_LO, def_TRC_TICKSET_HI,
   def_TRC_REPLAY, def_TRC_SIG, def_TRC_FLAGS, def_PWR_STATUS, def_PWR_CAP_FAST,
   def_PWR_CAP_SLOW, def_PWR_CAP_CFG, def_PWR_SLOPE, def_PWR_CORR, def_PWR_CHIP,
   def_PWR_AVG, def_PWR_E_CHIP, def_PWR_E_UNATTR, def_PWR_FEAT, def_PWR_PMAP,
   def_PWR_QMAP, def_PWR_PREF, def_PWR_REGION, def_PWR_LKG, def_PWR_EWT] ++
  [def_PWR_E_PART, def_PWR_E_QUEUE, def_THM_STATUS, def_THM_THR, def_THM_CFG,
   def_THM_TRIP, def_THM_TEMP, def_THM_SENSOR, def_THM_SPARE, def_CLK_STATUS,
   def_CLK_CTL, def_CLK_GATE, def_CLK_XCFG, def_CLK_SSC, def_CLK_PSYNC,
   def_CLK_MON, def_CLK_FAILOVER, def_ADC_STATUS, def_ADC_REF, def_ADC_CAL_CTL,
   def_ADC_AUXTRIG, def_ADC_AUX, def_ADC_PHTRIG, def_ADC_SPARE, def_ADC_COEF,
   def_FLT_STATUS, def_FLT_CLEAR, def_FLT_CTL, def_FLT_PEND, def_FLT_ROWS] ++
  [def_FLT_LOGSEL, def_FLT_LOGDATA0, def_FLT_LOGDATA1, def_FLT_LOGDATA2, def_FLT_CFG,
   def_HOOP_STATUS, def_HOOP_CFG, def_HOOP_CTL, def_HOOP_SHARE, def_HOOP_PACE,
   def_HOOP_RATE, def_HOOP_ALLOC, def_HOOP_STAT, def_HOOP_NOTICE, def_HOOP_SYNC,
   def_HOOP_MEMBER, def_PMB_CTL, def_PMB_DATA, def_PMB_STATUS, def_PMB_DEV,
   def_PMB_READ]

/-- PWR_PREF[4g + 3] holds no register (R494). -/
def prefHole (a : Nat) : Bool := 0x20300 ≤ a && a ≤ 0x204FC && (a - 0x20300) / 4 % 4 == 3

/-- The register array an aligned address falls in, if any. -/
def findReg (a : Nat) : Option RegDef :=
  if prefHole a || a % 4 != 0 then none
  else regTable.find? (fun d => d.base ≤ a && a < d.base + 4 * d.count)

/-- The reset word at an address: that of the Register Index, and 0 where no register is (R5, R495). -/
def resetWord (a : Nat) : Word :=
  match findReg a with
  | none => 0
  | some d => d.reset ((a - d.base) / 4)

end Sys2Proof.Machine
end

