-- ==== Sys2Proof/Machine/Maps.lean ====
section
/-! DEFINITION. Sparse tables as plain data: a list of (index, entry) pairs in one canonical form, in which an index
that is not listed holds a value given once by a function of the index. Registers, the records of regions, phases
and weaves, and the words of every memory are kept so. -/

namespace Sys2Proof.Machine

/-- A sparse table: index and entry, indices strictly rising, no entry equal to what an unlisted index holds. -/
abbrev SMap (α : Type) := List (Nat × α)

/-- The entry at index `k`; `d k` where the table does not list `k`. -/
def SMap.get {α : Type} (d : Nat → α) : SMap α → Nat → α
  | [], k => d k
  | (j, v) :: r, k => if j = k then v else SMap.get d r k

/-- The table without index `k`. -/
def SMap.erase {α : Type} : SMap α → Nat → SMap α
  | [], _ => []
  | (j, v) :: r, k => if j = k then SMap.erase r k else (j, v) :: SMap.erase r k

/-- The entry put in its place by index. -/
def SMap.place {α : Type} (k : Nat) (v : α) : SMap α → SMap α
  | [] => [(k, v)]
  | (j, w) :: r => if k < j then (k, v) :: (j, w) :: r else (j, w) :: SMap.place k v r

/-- Writing `v` at index `k`, in canonical form: writing what an unlisted index holds removes the entry. -/
def SMap.set {α : Type} [DecidableEq α] (d : Nat → α) (m : SMap α) (k : Nat) (v : α) : SMap α :=
  if v = d k then m.erase k else (m.erase k).place k v

/-- The canonical form: indices strictly rising above `lo`, and no entry an unlisted index would hold. -/
def SMap.wfFrom {α : Type} [DecidableEq α] (d : Nat → α) : Nat → SMap α → Bool
  | _, [] => true
  | lo, (j, v) :: r => decide (lo ≤ j) && decide (v ≠ d j) && SMap.wfFrom d (j + 1) r

/-- The canonical form of a table. -/
def SMap.wf {α : Type} [DecidableEq α] (d : Nat → α) (m : SMap α) : Bool := SMap.wfFrom d 0 m

/-- The table of `f` on the indices of `ks` (rising), in canonical form. -/
def SMap.tab {α : Type} [DecidableEq α] (d : Nat → α) (f : Nat → α) (ks : List Nat) : SMap α :=
  ks.foldr (fun k m => if f k = d k then m else (k, f k) :: m) []

end Sys2Proof.Machine
end

