-- ==== Sys2Proof/Syntax.lean ====
section
/-! DEFINITION. The commands of the block: one constructor for each row of spec/opcode_table.json, with the
operands the row's event brings. `t` is the time of the event in ns since VIN good. -/

namespace Sys2Proof

/-- A command: a step of the block that comes from outside it or from one of its own engines. DESIGN CHOICE, log 5. -/
inductive Instr where
  /-- HOST_REGISTER_WRITE (R25). A host write to a register that has no row of its own is transferred on the register port and takes effect as its chapter states. -/
  | hostRegisterWrite (t : Nat) (addr : Nat) (data : Word) (we : Bool)
  /-- TICKNO_LO_READ (R204). A read of ENG_TICKNO_LO returns TICKNO bits [31:0] and latches the high half for the next read of ENG_TICKNO_HI. -/
  | ticknoLoRead
  /-- CHIPID_LO_READ (R437). A read of CFG_CHIPID_LO returns chip ID bits [31:0] and latches the high half. -/
  | chipidLoRead
  /-- ENERGY_LO_READ (R282). A read of the LO half of an energy counter pair latches its HI half. -/
  | energyLoRead (addr : Nat)
  /-- ENG_HALT (R197). A write of ENG_CTL.HALT = 1 stops the engine at the next boundary after that boundary commits the last completed tick. -/
  | engHalt (t : Nat)
  /-- ENG_RESUME (R197). A write of ENG_CTL.HALT = 0 resumes ticking at a boundary within 3 µs, on the persistent state in force at the halt. -/
  | engResume (t : Nat)
  /-- ENG_MEM_READ (R198). A write of ENG_MADDR starts a read of the named word of engine memory, unless MEM is reserved or WORD is out of range. -/
  | engMemRead (data : Word)
  /-- ENG_MEM_READ_DONE (R198). A host-window read completes: the corrected word is placed in ENG_MDATA0..3 and BUSY clears. -/
  | engMemReadDone (ecc : List EccHit) (collide : Bool)
  /-- ENG_MEM_WRITE (R198). A write of ENG_MDATA3 writes ENG_MDATA0..3 to the named state-memory word while halted or stopped, and otherwise sets MWR_REFUSED. -/
  | engMemWrite (data : Word)
  /-- SWAP_REQUEST (R91). A write of WV_SWAP[w] with REQ = 1 requests a planned swap-in of LPOS; the request is queued or refused. -/
  | swapRequest (t : Nat) (w : Nat) (data : Word)
  /-- GROUP_SLEEP_REQUEST (R144). A write of REG_GSLEEP[g] with SLEEP = 1 sends each RUN region of the group to its chosen depth, or refuses it. -/
  | groupSleepRequest (t : Nat) (g : Nat) (data : Word)
  /-- GROUP_WAKE_REQUEST (R138). A write of REG_GSLEEP[g] with WAKE = 1 is a wake event for every region of the group at its transfer edge. -/
  | groupWakeRequest (t : Nat) (g : Nat) (data : Word)
  /-- PH_SWAP (R335). A write of CLK_CTL.PH_SWAP exchanges the active and standby phase loops at a weave period boundary, or is refused. -/
  | phSwap (data : Word)
  /-- SVC_SWAP (R335). A write of CLK_CTL.SVC_SWAP moves the service domain between FIO and PLL-E ÷ 3, or is refused. -/
  | svcSwap (data : Word)
  /-- PSYNC_ENABLE (R340). A write of CLK_PSYNC.EN = 1 starts phase alignment to XB, or is refused. -/
  | psyncEnable (data : Word)
  /-- XB_10K_WRITE (R343). A write of CLK_XCFG.XB_10K sets the declared XB frequency, or is ignored while alignment or an XB reference is in force. -/
  | xb10kWrite (data : Word)
  /-- ADC_REF_WRITE (R353). A write of ADC_REF changes a group's reference selection, or is refused. -/
  | adcRefWrite (data : Word)
  /-- CAL_ZERO_POINT (R364). A write of ADC_CAL_CTL.START with POINT = ZERO runs the zero calibration point over all 288 converters, or is refused. -/
  | calZeroPoint (data : Word)
  /-- CAL_FULL_POINT (R364). A write of ADC_CAL_CTL.START with POINT = FULL runs the full-scale calibration point, or is refused. -/
  | calFullPoint (data : Word)
  /-- CAL_POINT_DONE (R365). A calibration point completes; after a FULL point the gains and offsets are computed and checked, then written or refused. -/
  | calPointDone (means : List CalMean)
  /-- RC_DATA_WRITE (R432). A write of IMG_RCDATA stages one operating-table entry at ENTRY and advances ENTRY, or is refused. -/
  | rcDataWrite (data : Word)
  /-- RC_COMMIT (R432). A write of IMG_CTL.RC_COMMIT makes the staged table and an empty wear log pending for one commit, or is refused. -/
  | rcCommit (data : Word)
  /-- HOLD_DARK_WRITE (R420). A write of IMG_CTL.HOLD_DARK takes every region through Dusk and holds it dark in minimum safe mode, or releases it. -/
  | holdDarkWrite (t : Nat) (data : Word)
  /-- PMB_HOST_TRANSFER (R435). A write of PMB_CTL.START queues one host PMBus transfer, which runs between polls, or is refused. -/
  | pmbHostTransfer (data : Word)
  /-- TRC_ONESHOT (R486). A write of TRC_CTL.MODE = ONESHOT while halted discards trace memory, copies a STATE record and arms recording. -/
  | trcOneshot (data : Word)
  /-- TRC_RING (R478). A write of TRC_CTL.MODE = RING starts decimated ring recording. -/
  | trcRing (data : Word)
  /-- TRC_MODE_OFF (R486). A write of TRC_CTL.MODE = OFF ends a recording at the next boundary with an END record. -/
  | trcModeOff (data : Word)
  /-- TRC_STOP (R486). A write of TRC_CTL.STOP = 1 ends the recording at the next boundary with an END record. -/
  | trcStop (data : Word)
  /-- TRC_REPLAY_START (R488). A write of TRC_REPLAY.START = 1 starts an on-chip replay of the recorded one-shot run, or is refused. -/
  | trcReplayStart (data : Word)
  /-- TRC_TICKSET (R492). A write of TRC_TICKSET_HI while halted sets TICKNO from both halves, and is otherwise refused. -/
  | trcTickset (data : Word)
  /-- TRC_FLAGS_WRITE (R493). A write of TRC_FLAGS while halted sets the slice arithmetic flags, and is otherwise refused. -/
  | trcFlagsWrite (data : Word)
  /-- HOOP_LEAVE (R454). A write of HOOP_CTL.LEAVE = 1 sends a leaving FAULT notice and drives HOOP_BYP_N low. -/
  | hoopLeave (t : Nat) (data : Word)
  /-- HOOP_ENT_WRITE (R457). A write of HOOP_ALLOC.ENT changes the entitlement used by the acting allocator from the next turn. -/
  | hoopEntWrite (data : Word)
  /-- SLOW_CAP_LIMIT_WRITE (R456). A write of PWR_CAP_SLOW.LIMIT changes the local slow cap and sends a CAP frame as soon as the rate limit allows. -/
  | slowCapLimitWrite (t : Nat) (data : Word)
  /-- FLT_CLEAR (R387). A write of FLT_CLEAR clears one or every instance of a fault source, subject to its clearing rule. -/
  | fltClear (t : Nat) (data : Word)
  /-- FLAG_W1C_CLEAR (R387). A write of 1 to a fault source's W1C flag clears the instances for which that bit stands, subject to the clearing rule. -/
  | flagW1cClear (t : Nat) (addr : Nat) (data : Word)
  /-- THM_STOP_CLEAR (R315). A write of 1 to THM_STATUS.STOP clears the thermal stop when every T_g is below THROTTLE. -/
  | thmStopClear (t : Nat) (data : Word)
  /-- BRESET (R398). A write of FLT_CTL.BRESET starts a block warm reset. -/
  | breset (t : Nat) (data : Word)
  /-- FORECAST (R31). A FORECAST hint is accepted and updates its group's level and lead, and may act as a wake event. -/
  | forecast (t : Nat) (h : BitVec 64)
  /-- BARRIER_ENTER (R230). A BARRIER_ENTER hint opens a barrier of its group, displacing the oldest barrier when four are open. -/
  | barrierEnter (t : Nat) (h : BitVec 64)
  /-- BARRIER_EXIT (R230). A BARRIER_EXIT hint closes a matching open barrier, or counts as unmatched, and sets the lead remaining. -/
  | barrierExit (t : Nat) (h : BitVec 64)
  /-- PHASE_TAG (R256). A PHASE_TAG hint sets the group's workload phase and preferred operating point, and may be a wake event. -/
  | phaseTag (t : Nat) (h : BitVec 64)
  /-- LATENCY (R137). A LATENCY hint sets the group's wake latency limit from the next tick boundary. -/
  | latency (t : Nat) (h : BitVec 64)
  /-- HINT_RESERVED_TYPE (R30). A hint with a reserved TYPE or TAG 0b11 is discarded and sets HINT_BAD_TYPE. -/
  | hintReservedType (t : Nat) (h : BitVec 64)
  /-- ACT_FRAME_COMPLETE (R264). The 256th beat of an activity frame is accepted, completing a frame that the reducer then processes. -/
  | actFrameComplete (t : Nat) (beats : List (BitVec 64))
  /-- ACT_STALE_TIMEOUT (R34). When no complete activity frame has arrived for 4 µs, the last good frame is held and ACT_STALE is set. -/
  | actStaleTimeout (t : Nat)
  /-- HELD_COUNTER_RUN (R270). While counters are held, the reducer runs every 2 µs with τ = 20 µs. -/
  | heldCounterRun (t : Nat)
  /-- F_TGL_CAPTURE (R40). An F_TGL transition is captured with F_REQ and F_CUR into the engine domain, and is a wake request when F_REQ rises above 0. -/
  | fTglCapture (t : Nat) (n : Nat) (freq : Nat) (fcur : Nat)
  /-- FIDX_LATE_TIMEOUT (R43). When F_CUR stays above F_PERMIT for more than 1 µs, FIDX_LATE is set and the higher set-point is kept. -/
  | fidxLateTimeout (t : Nat) (n : Nat)
  /-- TICK_BOUNDARY (R22). At a tick boundary, the previous tick's outputs are committed or it is aborted, the snapshot is latched and the next tick starts. -/
  | tickBoundary (t : Nat) (a4Pass : Bool)
  /-- ENGINE_CLOCK_RESTART (R192). After a restart event, PLL-E is ready and the next boundary falls, and TICK runs on its snapshot. -/
  | engineClockRestart (t : Nat)
  /-- INIT_RUN (R191). After image acceptance or an engine restart, the array self-test runs and then INIT, whose outputs commit at the first boundary. -/
  | initRun (t : Nat) (arraysPass : List Bool)
  /-- NOP (R174). The NOP instruction does nothing. -/
  | nop
  /-- TWAIT (R186). The TWAIT instruction ends the tick program once every earlier instruction has drained. -/
  | twait (fetch : List EccHit)
  /-- LOOP (R185). The LOOP instruction executes the next LEN instructions CNT times. -/
  | loop (cnt : Nat) (len : Nat)
  /-- SMOV (R173). The SMOV instruction loads a zero-extended immediate into a scalar register. -/
  | smov (sd : Nat) (imm : Nat)
  /-- SADD (R173). The SADD instruction adds a sign-extended immediate to a scalar register. -/
  | sadd (sd : Nat) (imm : Nat)
  /-- CYC (R173). The CYC instruction writes the cycle count since the boundary, stalls included, into a scalar. -/
  | cyc (sd : Nat) (fetch : List EccHit)
  /-- TICK (R173). The TICK instruction writes half of TICKNO into a scalar. -/
  | tick (sd : Nat) (imm : Nat)
  /-- AFLG (R217). The AFLG instruction reads the slice's sticky arithmetic flags into a scalar, and optionally clears them. -/
  | aflg (sd : Nat) (imm : Nat)
  /-- LDS (R172). The LDS instruction loads selected rows of a block from state memory, reading current copies of persistent rows. -/
  | lds (o : MOp) (ecc : List EccHit)
  /-- STS (R172). The STS instruction stores selected block rows to state memory, writing pending copies of persistent rows. -/
  | sts (o : MOp)
  /-- LDC (R171). The LDC instruction loads selected rows of a block from coefficient memory. -/
  | ldc (o : MOp) (ecc : List EccHit)
  /-- MVB (R175). The MVB instruction forms broadcast-weight T10 × C18 products into an accumulator. -/
  | mvb (o : XOp) (ecc : List EccHit) (mismatch : Bool)
  /-- MVR (R175). The MVR instruction forms row-dot T10 × C18 products into an accumulator. -/
  | mvr (o : XOp) (ecc : List EccHit) (mismatch : Bool)
  /-- MVP (R175). The MVP instruction forms per-lane C18 × C18 products into an accumulator. -/
  | mvp (o : XOp) (ecc : List EccHit) (mismatch : Bool)
  /-- MVW (R175). The MVW instruction forms per-lane W36 × W36 products into an accumulator. -/
  | mvw (o : XOp) (ecc : List EccHit) (mismatch : Bool)
  /-- ACRD (R224). The ACRD instruction rounds accumulator outputs once to a block and sets the flags from the cell marks. -/
  | acrd (o : ROp)
  /-- ACXW (R223). The ACXW instruction copies accumulator sums and marks exactly, spreading weave lanes to region lanes. -/
  | acxw (o : ROp)
  /-- REDX (R180). The REDX instruction sums a block over the quadrants in quadrant order and writes the result to all slices. -/
  | redx (o : ROp)
  /-- REDA (R225). The REDA instruction sums a block over the quadrants in order of arrival. -/
  | reda (o : ROp) (order : List Nat)
  /-- VADD (R219). The VADD instruction adds two blocks elementwise with one rounding. -/
  | vadd (o : ROp)
  /-- VSUB (R219). The VSUB instruction subtracts two blocks elementwise with one rounding. -/
  | vsub (o : ROp)
  /-- VMUL (R219). The VMUL instruction multiplies two blocks elementwise with one rounding. -/
  | vmul (o : ROp)
  /-- VFMA (R219). The VFMA instruction forms BA × BB + BD exactly and rounds once. -/
  | vfma (o : ROp)
  /-- VCVT (R221). The VCVT instruction converts a block between the engine number formats. -/
  | vcvt (o : ROp)
  /-- VXW (R174). The VXW instruction spreads weave lanes to the lanes of their regions. -/
  | vxw (o : ROp)
  /-- VSUML (R225). The VSUML instruction sums each group of 16 lanes in a fixed pairwise tree. -/
  | vsuml (o : ROp)
  /-- PRNG (R477). The PRNG instruction writes I16 draws of the keyed PRNG for the tick into a block. -/
  | prng (o : ROp)
  /-- VMIN (R220). The VMIN instruction takes the elementwise minimum, with NaN treated as absent. -/
  | vmin (o : ROp)
  /-- VMAX (R220). The VMAX instruction takes the elementwise maximum, with NaN treated as absent. -/
  | vmax (o : ROp)
  /-- VCLMP (R220). The VCLMP instruction clamps a block between two bounds. -/
  | vclmp (o : ROp)
  /-- VMINI (R220). The VMINI instruction keeps the lesser value and records the selector of the winner. -/
  | vmini (o : ROp)
  /-- VCMP (R220). The VCMP instruction writes 1.0 or 0 per lane by the selected comparison. -/
  | vcmp (o : ROp)
  /-- VSEL (R174). The VSEL instruction copies the rows selected by FN from one block to another. -/
  | vsel (o : ROp)
  /-- VSELL (R220). The VSELL instruction copies lanes where the selector block is non-zero. -/
  | vsell (o : ROp)
  /-- TLOP (R178). The TLOP instruction reads the operating-table minimum VCODE and margin class for an F-index and band. -/
  | tlop (o : ROp) (ecc : List EccHit)
  /-- TLUF (R177). The TLUF instruction evaluates a piecewise-linear function table with one rounding. -/
  | tluf (o : ROp) (ecc : List EccHit)
  /-- RDSNP (R181). The RDSNP instruction reads a snapshot group into a block. -/
  | rdsnp (o : ROp)
  /-- RDHINT (R181). The RDHINT instruction reads the hint state of each region's group into a block. -/
  | rdhint (o : ROp)
  /-- RDACT (R271). The RDACT instruction reads activity feature rows into a block. -/
  | rdact (o : ROp)
  /-- RDASY (R225). The RDASY instruction reads the live value of a snapshot group at issue. -/
  | rdasy (o : ROp)
  /-- WROUT (R182). The WROUT instruction writes an output field for all regions into the output buffer. -/
  | wrout (o : ROp)
  /-- WRFLG (R188). The WRFLG instruction raises an engine program event at the commit of its tick. -/
  | wrflg (imm : Nat)
  /-- RSEND (R183). The RSEND instruction queues a PROG Hoop message, stalling while the queue is full. -/
  | rsend (o : ROp) (freed : Option Nat)
  /-- SCRUB_ACCESS (R170). The scrubber reads a memory word in an idle port cycle and writes back a corrected word. -/
  | scrubAccess (t : Nat) (mem : Nat) (hit : EccHit) (found : Bool) (collide : Bool)
  /-- SCRUB_REMAP (R394). A word with a repeated corrected error is copied to a spare row and redirected at the next boundary. -/
  | scrubRemap (mem : Nat) (word : Nat)
  /-- FAST_LOOP_PERIOD (R104). In each switching period the weave loop computes each region's duty from its window code and commands every switching phase. -/
  | fastLoopPeriod (t : Nat) (w : Nat) (windows : List Nat) (results : List PhaseResult)
  /-- SENSE_FRAME (R69). A Yalga-V sense frame carrying the period's current code and status bits is received, or discarded if malformed. -/
  | senseFrame (p : Nat) (frame : BitVec 16)
  /-- FAST_LIMIT_TRIP (R76). A stage's high-side current reaches the fast threshold; the high side turns off and FL is set. -/
  | fastLimitTrip (p : Nat)
  /-- SAFE_ZERO_CROSS (R80). A phase in SAFE reaches zero inductor current and both switches turn off. -/
  | safeZeroCross (p : Nat)
  /-- SAFE_LOW_SIDE_TIMEOUT (R80). 200 ns after a phase enters SAFE, both switches turn off whatever the current. -/
  | safeLowSideTimeout (p : Nat)
  /-- PLAIT_ROTATION (R74). Every 2^(ROT_LOG2 + 4) periods each region moves its base index, and its phase offsets rotate. -/
  | plaitRotation (w : Nat)
  /-- DROOP_EPISODE_START (R119). A detector crossing with the droop path armed starts an episode: drive pulses fire and DROOP_ASSERT rises. -/
  | droopEpisodeStart (t : Nat) (n : Nat) (crossed : Nat)
  /-- DROOP_ROUND (R119). During an episode a new round of droop pulses starts each switching period, up to ROUNDS. -/
  | droopRound (n : Nat)
  /-- DROOP_EPISODE_END (R17). All four detectors clear, ending the episode and starting the 2 µs shed hold. -/
  | droopEpisodeEnd (t : Nat) (n : Nat)
  /-- DROOP_ASSERT_MIN_EXPIRY (R38). DROOP_ASSERT falls once its 100 ns minimum has passed and the episode has ended. -/
  | droopAssertMinExpiry (t : Nat) (n : Nat)
  /-- DELAY_CHAIN_CALIBRATION (R120). Every 1 ms the droop delay chains are calibrated against the phase loop. -/
  | delayChainCalibration (t : Nat)
  /-- SWAPIN_START (R85). A queued swap-in starts when an idle spare exists: the spare is chosen and its steering command is sent. -/
  | swapinStart (t : Nat) (w : Nat)
  /-- SACK_RECEIVED (R71). The spare stage reports SACK, and the swap-in moves to CAL_ZERO. -/
  | sackReceived (w : Nat) (symbols : BitVec 6)
  /-- SWAPIN_SACK_TIMEOUT (R85). No SACK within 0.5 µs fails the swap-in with CAL_FAIL. -/
  | swapinSackTimeout (t : Nat) (w : Nat)
  /-- CAL_ZERO_DONE (R85). The spare's zero-code samples complete and are checked against its test record. -/
  | calZeroDone (t : Nat) (w : Nat) (mean : Nat)
  /-- CAL_DELAY_DONE (R85). The Yalga-V probe pulses complete, and CHAN_DLY and DEADTIME are set and checked. -/
  | calDelayDone (t : Nat) (w : Nat) (roundTrip : Nat) (deadTime : Nat)
  /-- CAL_PULSE_DONE (R85). The spare's share ramp completes and its current is checked against the model; the swap-in waits for mapping. -/
  | calPulseDone (t : Nat) (w : Nat)
  /-- REGION_SENSE_CONVERSION (R355). A region sense converter completes a conversion every 62.5 ns. -/
  | regionSenseConversion (c : Nat) (code : Nat)
  /-- PROBE_START (R113). At its slot in each 1 ms frame, the leg probe drives 20 µA into the region's sense legs, unless deferred. -/
  | probeStart (t : Nat) (n : Nat)
  /-- PROBE_END (R113). After 2 µs the probe ends; its result is judged and two failures mark the connection cracked. -/
  | probeEnd (t : Nat) (n : Nat)
  /-- OV_TRIP (R108). An over-voltage comparator trips: a class S event forces the region's phases to SAFE and the region to DARK-FAULTED. -/
  | ovTrip (t : Nat) (n : Nat) (site : Nat)
  /-- UV_TIMEOUT (R110). A region in RUN below 85 % of its reference for 16 µs sets UV. -/
  | uvTimeout (t : Nat) (n : Nat)
  /-- DETECTOR_STUCK_TIMEOUT (R117). A detector crossed for 10 µs while the voltage is well above threshold is masked, and DET_DEAD is raised. -/
  | detectorStuckTimeout (t : Nat) (n : Nat) (k : Nat)
  /-- RAISE_SLOW_TIMEOUT (R123). A raise not granted 20 µs after it began sets RAISE_SLOW. -/
  | raiseSlowTimeout (t : Nat) (n : Nat)
  /-- CONVERTER_CHECK_FAIL (R361). After 256 consecutive disagreements with the window converter, the spare converter starts arbitrating. -/
  | converterCheckFail (n : Nat)
  /-- ARBITER_DONE (R361). The arbiter's conversions complete, and the region converter or the window converter is judged failed, or neither. -/
  | arbiterDone (t : Nat) (w : Nat) (code : Nat)
  /-- GAIN_T_READ (R360). A read command fetches a stage's GAIN_T in two reply results, which are checked. -/
  | gainTRead (t : Nat) (p : Nat) (r1 : Nat) (r2 : Nat)
  /-- GAIN_T_RETRY (R360). A bad GAIN_T reply is retried 1 µs later, up to three times, and the stage is then marked CAL_FAIL. -/
  | gainTRetry (t : Nat) (p : Nat) (r1 : Nat) (r2 : Nat)
  /-- PHTRIG_CONFIG (R357). A configuration command loads ADC_PHTRIG into a Yalga-V stage's latch when the stage is idle. -/
  | phtrigConfig (p : Nat) (symbols : BitVec 11)
  /-- AUX_CONVERSION (R356). An auxiliary converter completes a conversion started by its timer or PWM event. -/
  | auxConversion (t : Nat) (i : Nat) (code : Nat)
  /-- AUX_PWM_FALLBACK (R356). A PWM-triggered converter whose phase gives no event for 1 µs starts on its timer. -/
  | auxPwmFallback (t : Nat) (i : Nat)
  /-- REF_SETTLED (R354). A group's reference settling time passes, and REF_SETTLED is set. -/
  | refSettled (g : Nat)
  /-- EXT_REF_CHECK (R354). Every 10 µs AIN7 is checked against the bandgap, and groups fall back if it is out of tolerance. -/
  | extRefCheck (t : Nat) (ain7mV : Nat)
  /-- FORECAST_EXIT_START (R142). The SLO-timed wait after a FORECAST or BARRIER_EXIT ends, and the region's exit starts. -/
  | forecastExitStart (t : Nat) (n : Nat)
  /-- REGION_READY (R139). A waking region meets every readiness condition and enters RUN; LATE is set if it overran. -/
  | regionReady (t : Nat) (n : Nat)
  /-- SOFTSTART_STAGE (R150). A 2 µs mesh soft-start stage ends; the ramp and the settling wait advance. -/
  | softstartStage (t : Nat) (n : Nat)
  /-- SOFTSTART_TIMEOUT (R150). A region not settled 20 µs after reaching its target becomes DARK-FAULTED with cause SS_TIMEOUT. -/
  | softstartTimeout (t : Nat) (n : Nat)
  /-- DETECTOR_SELF_TEST_DONE (R116). The 1 µs detector self-test completes, failures are masked, and the droop path is armed. -/
  | detectorSelfTestDone (t : Nat) (n : Nat) (detFail : Nat) (ovcFail : Nat)
  /-- DAWN_STAGE (R153). A Dawn header stage or wait period ends; the feed is compared and the next segment closes or a wait is inserted. -/
  | dawnStage (t : Nat) (n : Nat)
  /-- DUSK_STAGE (R156). A 1.25 µs Dusk stage ends and the next header segment opens, or the region becomes DARK. -/
  | duskStage (t : Nat) (n : Nat)
  /-- CHIP_RESET (R48). A CRST_N low pulse is taken as a chip reset: the engine stops, outputs fall to 0 and the reset Dusk is scheduled. -/
  | chipReset (t : Nat)
  /-- RESET_DUSK_START (R158). At (15 − w) × 2.5 µs after the reset, weave w starts its reset Dusk. -/
  | resetDuskStart (t : Nat) (w : Nat)
  /-- CHIP_RESET_END (R158). With every region dark, the weave domain reset is applied and start-up runs from step 3. -/
  | chipResetEnd (t : Nat)
  /-- TEMP_SAMPLE (R299). A 10 µs temperature sample completes in every sensor and its readings are computed. -/
  | tempSample (t : Nat) (counts : List RingCount)
  /-- QUIESCE_ACK (R313). QUIESCE_ACK rises during an orderly stop, and issue, floor and permits are committed as 0. -/
  | quiesceAck (t : Nat)
  /-- QUIESCE_ACK_TIMEOUT (R313). With no QUIESCE_ACK within 150 µs, the stop proceeds and ACK_LATE is set. -/
  | quiesceAckTimeout (t : Nat)
  /-- STOP_REGION_DOWN (R314). During a stop, a region whose F_CUR is 0, or whose 1 µs has passed, is taken down. -/
  | stopRegionDown (t : Nat) (n : Nat)
  /-- BARRIER_STALE (R231). A barrier open for 80,000 SLO cycles is closed without an exit, and BAR_STALE counts it. -/
  | barrierStale (g : Nat) (id : Nat)
  /-- FLASH_WINDOW_REOPEN (R317). After the flash-write window has held for 10 ms, flash operations may start again. -/
  | flashWindowReopen (t : Nat)
  /-- CLOCK_SOURCE_LOSS (R328). A source is detected lost by its missing-edge detector, monitor or unlock; its ready flag clears. -/
  | clockSourceLoss (t : Nat) (src : Nat)
  /-- FREQ_MONITOR_WINDOW (R328). A 64-SLO-cycle monitor window ends and each source's count is judged in or out of band. -/
  | freqMonitorWindow (t : Nat) (counts : List Nat)
  /-- SOURCE_RECOVERED (R329). A lost source that has been ready again for 1 ms returns to service in its role. -/
  | sourceRecovered (t : Nat) (src : Nat)
  /-- LOOP_REREFERENCE (R331). The loops re-reference to XB after 50 µs, to FIO after 10 ms of holdover, or back to XA. -/
  | loopRereference (t : Nat)
  /-- SLO_STOP (R330). SLO stops; a class S event takes every region dark until a chip reset. -/
  | sloStop (t : Nat)
  /-- PH_ACTIVE_LOSS (R333). Loss of the active phase loop forces every phase to SAFE, and the selector is set to switch to the standby. -/
  | phActiveLoss (t : Nat)
  /-- FAILOVER_RESUME (R334). The selector moves the weave domain to the standby loop and phase drive resumes. -/
  | failoverResume (t : Nat)
  /-- PHASE_CLOCK_COLLAPSE (R334). With no phase drive 2 µs after the loss, every region is taken DARK and COLLAPSE is set. -/
  | phaseClockCollapse (t : Nat)
  /-- SSC_TURNING_POINT (R339). At a turning point of the spread triangle, new settings and dither take effect. -/
  | sscTurningPoint
  /-- PSYNC_LOCK (R340). After 1,024 periods within ±2 fine steps, PSYNC_LOCKED is set. -/
  | psyncLock
  /-- CLASS_S_EVENT (R380). A class S event at the collector forces the phases in its scope to SAFE within 8 ns. -/
  | classSEvent (t : Nat) (src : Nat) (index : Nat)
  /-- COLL_PARITY_CHECK (R382). Every SLO cycle the collector checks FLT_CFG parity, and a mismatch requests a chip reset. -/
  | collParityCheck (t : Nat) (upsets : List BitUpset)
  /-- VIN_GOOD (R424). VIN stays above 1.58 V for 100 µs and the always-on domain starts powering up. -/
  | vinGood (t : Nat)
  /-- VIN_BAD (R424). VIN below 1.52 V for 1 µs forces every phase to SAFE, opens the headers and resets every domain. -/
  | vinBad (t : Nat)
  /-- ALWAYS_ON_READY (R60). The always-on power-up completes, and FAULT_N is released. -/
  | alwaysOnReady (t : Nat)
  /-- IMAGE_LOAD (R415). After the flash reset, the loader reads SFDP and both headers, samples the strap, and reads, checks and loads every section. -/
  | imageLoad (t : Nat) (buildV : Bool) (flash : Flash) (chanDly : List Nat)
  /-- FLASH_READY (R408). The polled flash reports ready, and the load proceeds. -/
  | flashReady (t : Nat)
  /-- LOAD_TIMEOUT (R408). A load not finished 1,200 ms after XSPI_RESET_N rose is refused with code 0x19. -/
  | loadTimeout (t : Nat) (buildV : Bool)
  /-- DIGEST_READY (R416). The digest is final and compared, and IMG_TRUSTED is sampled. -/
  | digestReady (t : Nat) (trusted : Bool)
  /-- IMG_TRUSTED_RISE (R417). IMG_TRUSTED rises with TRUST_REQ 1, and the image is accepted. -/
  | imgTrustedRise (t : Nat) (level : Bool)
  /-- TRUST_TIMEOUT (R417). IMG_TRUSTED still low 100 ms after DIGEST_READY refuses the image or raises IMG_UNTRUSTED. -/
  | trustTimeout (t : Nat)
  /-- SAFE_MODE_COMMIT (R419). In minimum safe mode the output stage commits fixed outputs every 250 ns. -/
  | safeModeCommit (t : Nat)
  /-- JOURNAL_COMMIT_START (R429). A commit starts when a kind is pending, the window holds and 1 s has passed since the last commit. -/
  | journalCommitStart (t : Nat)
  /-- FLASH_OP_DONE (R428). A flash erase or program completes, its status is checked, and the commit proceeds or is abandoned. -/
  | flashOpDone (t : Nat) (ok : Bool)
  /-- FLASH_OP_TIMEOUT (R429). An erase not finished in 200 ms or a page not programmed in 5 ms abandons the commit. -/
  | flashOpTimeout (t : Nat)
  /-- JOURNAL_COMMIT_COMPLETE (R428). The commit record reads back correctly and the commit is complete. -/
  | journalCommitComplete (t : Nat) (ok : Bool)
  /-- PMB_START_LIST (R433). After acceptance, device revisions and VOUT_MODE are read and the start list is sent. -/
  | pmbStartList (t : Nat) (answers : List PmbAnswer) (fails : List Nat)
  /-- PMB_POLL (R434). Every 10 ms the status, output voltage and current of every device are read. -/
  | pmbPoll (t : Nat) (answers : List PmbPollAnswer)
  /-- PMB_ALERT (R434). PMB_ALERT_N low triggers a read of the Alert Response Address and of the answering device's status. -/
  | pmbAlert (t : Nat) (addr : Nat) (status : Nat) (fails : Nat) (statusFails : Nat)
  /-- PMB_RETRY (R434). A failed PMBus transfer is retried 1 ms later, and PMB_ERR is raised after two retries. -/
  | pmbRetry (t : Nat) (i : Nat) (a : PmbPollAnswer)
  /-- TAP_EXTEST (R61). The EXTEST instruction holds every phase SAFE and every header open until a chip reset. -/
  | tapExtest (t : Nat)
  /-- TAP_SAMPLE_PRELOAD (R61). The SAMPLE/PRELOAD boundary-scan instruction. -/
  | tapSamplePreload
  /-- TAP_BYPASS (R61). The BYPASS boundary-scan instruction. -/
  | tapBypass
  /-- TAP_IDCODE (R61). The IDCODE instruction returns the identification code with the integrator's JEDEC identity. -/
  | tapIdcode
  /-- TEST_LOGIC_RESET (R61). TRST_N low resets the test access port, which holds BYPASS. -/
  | testLogicReset (low : Bool)
  /-- HOOP_CAP (R456). A received CAP frame updates the sender's average, limit and capped state, and is forwarded. -/
  | hoopCap (t : Nat) (f : Frame)
  /-- HOOP_BUDGET (R460). A received BUDGET frame sets the share of the members it names, and is forwarded. -/
  | hoopBudget (t : Nat) (f : Frame)
  /-- HOOP_PACE (R462). A received PACE frame of the member's pace group sets or releases a pace notice. -/
  | hoopPace (t : Nat) (f : Frame)
  /-- HOOP_TICK_SYNC (R463). A received TICK_SYNC frame records the tick and cycle offset in HOOP_SYNC. -/
  | hoopTickSync (t : Nat) (f : Frame)
  /-- HOOP_FAULT (R464). A received FAULT frame is recorded in HOOP_NOTICE and raises HOOP_NOTICE. -/
  | hoopFault (t : Nat) (f : Frame)
  /-- HOOP_PROG (R466). A received PROG frame provides its two words to the RING snapshot rows. -/
  | hoopProg (t : Nat) (f : Frame)
  /-- HOOP_RESERVED_TYPE (R455). A frame of reserved TYPE is forwarded but otherwise discarded. -/
  | hoopReservedType (t : Nat) (f : Frame)
  /-- HOOP_BAD_FRAME (R450). A frame with a bad CRC or a coding error is discarded and not forwarded. -/
  | hoopBadFrame (t : Nat) (lane : Nat) (syms : List Symbol)
  /-- HOOP_OWN_FRAME_RETURN (R452). A member's own frame returns: it is removed from the buffer, or a duplicated ID is detected. -/
  | hoopOwnFrameReturn (t : Nat) (f : Frame)
  /-- HOOP_RESEND (R452). A frame not returned within 2 turns is resent, and dropped after the third resend. -/
  | hoopResend (t : Nat) (seq : Nat)
  /-- HOOP_LANE_FAIL (R449). A lane is judged failed, and the receiver moves to the other lane if that lane is OK. -/
  | hoopLaneFail (t : Nat) (lane : Nat)
  /-- HOOP_LANE_OK (R449). A failed lane is judged OK after 1 ms in alignment without error. -/
  | hoopLaneOk (t : Nat) (lane : Nat)
  /-- HOOP_ALLOCATION (R457). Once per turn the acting allocator recomputes every share and sends BUDGET frames. -/
  | hoopAllocation (t : Nat)
  /-- HOOP_ALLOCATOR_TAKEOVER (R459). The allocator or backup starts acting after 16 or 32 turns without hearing a BUDGET. -/
  | hoopAllocatorTakeover (t : Nat)
  /-- HOOP_BUDGET_MISSING (R460). More than 1 turn without a BUDGET raises HOOP_HOLD. -/
  | hoopBudgetMissing (t : Nat)
  /-- HOOP_DOWN_TIMEOUT (R453). With STATE other than UP for 3 turns and the bypass open, HOOP_DOWN is raised. -/
  | hoopDownTimeout (t : Nat)
  /-- HOOP_CAP_SEND (R456). A member sends its CAP frame once per 4 turns. -/
  | hoopCapSend (t : Nat)
  /-- HOOP_TICK_SYNC_SEND (R455). The acting allocator sends a TICK_SYNC frame once per turn. -/
  | hoopTickSyncSend (t : Nat)
  /-- HOOP_BYPASS_OPEN (R454). When all conditions hold and 10 ms have passed, Yalga sends idles and drives HOOP_BYP_N high. -/
  | hoopBypassOpen (t : Nat)
  /-- TRACE_RECORD_EXPORT (R485). A whole record is exported to the host ring when it has room, and WPTR advances. -/
  | traceRecordExport (ready : Bool)
  /-- TRACE_TRIGGER_STOP (R478). POST × 16 ticks after the trigger source becomes pending, RING recording stops and TRIGGERED is set. -/
  | traceTriggerStop (t : Nat)
  /-- STATE_RECORD_COPY_DONE (R486). The STATE record copy completes, and ARMED is set. -/
  | stateRecordCopyDone
  /-- REPLAY_TICK (R488). The on-chip replay runs one recorded tick per tick length and compares its signature. -/
  | replayTick (t : Nat)
  /-- CLOCK_SOURCE_READY (R327). A newly enabled or relocking oscillator or loop becomes ready, which releases what waits on it: the service domain, a held phase-clock forcing, or a stopped service domain. -/
  | clockSourceReady (t : Nat) (src : Nat)
  /-- MEMORY_TEST_DONE (R422). The built-in test of the engine memories ends, with failing words remapped and every word zeroed, so that sections may be loaded. -/
  | memoryTestDone (failing : List MemWord)
  /-- PMB_TRANSFER_DONE (R435). A queued PMBus transfer that was fitted between polls completes, so its data reaches PMB_DATA and BUSY clears, or the transfer fails. -/
  | pmbTransferDone (t : Nat) (ok : Bool) (data : Nat)
  /-- HOOP_RATE_LIMIT_EXPIRY (R455). A frame held in the transmit buffer by its type's rate limit becomes eligible, and its first transmission starts. -/
  | hoopRateLimitExpiry (t : Nat)
  deriving DecidableEq, Repr

end Sys2Proof
end

