-- ==== Sys2Proof/Machine/State.lean ====
section
/-! DEFINITION. The state of the block as plain data: every register of the host window, and every piece of hidden
state the spec gives the regions, phases, weaves, engine, memories, rings and sequencers, with the queue of commands
that are waiting. `State.reset` is the block before VIN is good. -/

namespace Sys2Proof.Machine

/-- What drives a stage's switches (R64, R80): both off, low side on, or switching under the weave loop. -/
inductive Drive where
  | off
  | low
  | loop
  deriving DecidableEq, Repr

/-- A phase position's hidden state (chapter 3). Currents are in units of 1/131072 A. -/
structure Ph where
  /-- The drive of the stage. -/
  drive : Drive := .off
  /-- The running period: the loop's duty code, the droop pulses that reached the stage in it, the fine steps by which its start was
  delayed, and whether something ended its on-time early (R64, R66, R73, R76). -/
  duty : Nat := 0
  pulses : Nat := 0
  delay : Nat := 0
  cut : Bool := false
  /-- The weave loop drove the stage in the running period (R16, R64). -/
  drove : Bool := false
  /-- The slot offset in force (R72, R73), and the high-side, dead and low-side times of the last complete period, in fine steps
  (R64, R65). -/
  offset : Nat := 0
  onLast : Nat := 0
  deadLast : Nat := 0
  lowLast : Nat := 0
  /-- A shed takes effect at the phase's next switching period (R16). -/
  shedDue : Bool := false
  /-- The result of the period, not yet used by the weave loop (R67, R69). -/
  res : Option PhaseResult := none
  /-- The last valid result. -/
  last : Option PhaseResult := none
  /-- Consecutive periods with FL (R77), with OT, tested near zero (R516), and without a result (Table 3-6). -/
  flRun : Nat := 0
  otRun : Nat := 0
  openRun : Nat := 0
  missRun : Nat := 0
  /-- Period-average currents of the last 16 µs, newest first (R78). -/
  hist : List Int := []
  /-- TRIM of the position it serves, fine steps (R104). -/
  trim : Int := 0
  /-- Sum and count of the duty codes of the tick (R83). -/
  dutySum : Nat := 0
  dutyN : Nat := 0
  /-- Consecutive ticks with a failed model check, and the sum of their residuals (R83). -/
  modelRun : Nat := 0
  modelSum : Rat := 0
  /-- Path resistance: value at test and filtered value, 1/16384 mΩ (R88); the filtered sense offset (1/131072 A). -/
  rTest : Nat := 0
  rPath : Rat := 0
  ofs : Rat := 0
  /-- When WEAR_RON or WEAR_SENSE was last cleared, from which the next filter interval runs (R388). -/
  ronAt : Option Nat := none
  ofsAt : Option Nat := none
  /-- When the phase was last parked (R88), and when it last reported OT. -/
  parkedAt : Option Nat := none
  otAt : Option Nat := none
  /-- The condition held before a loss of the active phase loop (R334). -/
  saved : Option Nat := none
  /-- Zero code recorded at test (Table 3-8). -/
  zeroTest : Nat := 256
  /-- Region a spare's steering switch is closed to, the widths in phase-clock steps of the low-side pulses of the steering
  command last sent, and whether the switch is to open, by a command that waits for an idle stage or is on its way (R71, R87). -/
  steer : Option Nat := none
  steerCmd : List Nat := []
  openDue : Bool := false
  /-- The fast limit holds the high side off until the next loop on-time (R76). -/
  flHold : Bool := false
  /-- The fast limit tripped in the period (R76). -/
  flTrip : Bool := false
  /-- The phase faults that stand, by their codes of Table 3-12: FAIL_OPEN, FAIL_SHORT, STAGE_OT and CAL_FAIL hold the phase in SAFE
  (R81), SENSE_FAIL marks it for BLIND (R84), and WEAR_SENSE has its offset subtracted (R89). -/
  faults : BitVec 16 := 0
  /-- A spare has taken its logical position (R81). -/
  replaced : Bool := false
  /-- Stage latches of ADC_PHTRIG: EVENT and DELAY in force in the stage; those last sent to it, by which the weave loop predicts its
  sample point (R516); whether a written setting still waits, and the widths in phase-clock steps of the pulses of the
  configuration command last sent (R357). -/
  trigEvent : Nat := 2
  trigDelay : Nat := 2
  sentEvent : Nat := 2
  sentDelay : Nat := 2
  trigDue : Bool := false
  trigCmd : List Nat := []
  /-- GAIN_T of the stage, the retries of a read of it, and the periods still to come whose results carry a reply (R360). -/
  gainT : Nat := 0x800
  gainTries : Nat := 0
  replies : Nat := 0
  deriving DecidableEq, Repr

/-- A queued or running swap-in (R85): the logical position to be served, whether it is planned, and whether its
region makes it wait (R87). -/
structure Swap where
  lpos : Nat
  planned : Bool := false
  waiting : Bool := false
  deriving DecidableEq, Repr

/-- A weave's hidden state. -/
structure Wv where
  /-- Waiting swap-ins, failures ahead of planned (R85). -/
  queue : List Swap := []
  /-- The running swap-in and its spare position. -/
  run : Option Swap := none
  spare : Nat := 0
  startedAt : Nat := 0
  /-- Periods of CAL_PULSE run so far, up to 400; of its periods outside droop episodes the last 100, newest first, as sensed current
  and duty; and whether FL was seen in the stage (R86, Tables 3-7, 3-8). -/
  ramp : Nat := 0
  calLog : List (Int × Nat) := []
  calFl : Bool := false
  /-- Switching periods since the last plait rotation (R74). -/
  periods : Nat := 0
  /-- Spare converter in use by an arbitration: region; the stand-in waits for the next boundary (R361). -/
  arb : Option Nat := none
  standDue : Bool := false
  /-- A header segment has closed in the present switching period, and the closings that wait for the next ones, as region and
  segment (R153). -/
  closed : Bool := false
  closeQ : List (Nat × Nat) := []
  deriving DecidableEq, Repr

/-- A region's hidden state (chapters 2, 4 and 5). -/
structure Rgn where
  /-- Issue-throttle port: committed ISSUE_LIMIT and FLOOR, and the toggle (R35). -/
  issue : Nat := 0
  floor : Nat := 0
  thrTgl : Bool := false
  pTgl : Bool := false
  droopAssert : Bool := false
  /-- Header enables (R45). -/
  hdrEn : BitVec 16 := 0
  /-- Fast loop: integrator, previous error, loss share, slew accumulator (R104, R107). -/
  integ : Int := 0
  ePrev : Int := 0
  loss : Int := 0
  slewAcc : Nat := 0
  /-- A phase was commanded at 0 or 224 or held at its slow limit in the last period (R105). -/
  froze : Bool := false
  /-- Base index B[n], droop lead D[n], and a rotation deferred by an episode (R74, R75). -/
  baseK : Nat := 0
  leadK : Nat := 0
  rotDue : Bool := false
  /-- Droop episode: in progress, when it began, the lead of its pulses and the phases of its last round in their order, when the
  last one ended, lowest window code, rounds fired,
  episodes that ended since the last boundary as (start, end, lowest code) (R17, R21, R119). -/
  episode : Bool := false
  epStart : Nat := 0
  epLead : Nat := 0
  fired : List Nat := []
  epEnd : Option Nat := none
  epMin : Nat := 32
  rounds : Nat := 0
  epLog : List (Nat × Nat × Nat) := []
  /-- The lowest window code in an episode since the last boundary; 64 when there was none. -/
  tickMin : Nat := 64
  crossed : Nat := 0
  /-- The time of the first crossing of each detector that is crossed, and since when every reading of the region has stood
  more than 10 mV above the droop threshold (R117). -/
  crossAt : SMap Nat := []
  clearSince : Nat := 0
  /-- Starts of the episodes begun since the last boundary, oldest first (R21, R121). -/
  begun : List Nat := []
  /-- References of the last 2 µs with their times, newest first (R108). -/
  refs : List (Nat × Nat) := []
  /-- Region sense converter: conversions since the last tap reading, last tap reading, whether it is new since the
  last boundary, tap failures in a row (R111, R112). -/
  convs : Nat := 0
  tap : Nat := 0
  tapNew : Bool := false
  tapRun : Nat := 0
  /-- A droop episode was in progress at the last tap reading (R112). -/
  tapEp : Bool := false
  /-- The remote readings of the last 1 µs, newest first (R113). -/
  last16 : List Nat := []
  /-- The connection was judged cracked and the fallback is due at the next boundary (R114). -/
  crackDue : Bool := false
  /-- Leg probe: sum of the 16 readings before it while it runs, when it began, the frame of the last one, failed probes in
  a row, and a probe due at clearing (R113, R114). -/
  probe : Option Nat := none
  probeAt : Nat := 0
  probeFrame : Option Nat := none
  probeRun : Nat := 0
  clearProbe : Bool := false
  /-- Every conversion since the last boundary lay within 5 mV of the reference (R122). -/
  settled : Bool := true
  convsInTick : Nat := 0
  /-- When the converter first read below 85 % without interruption (R110). -/
  uvAt : Option Nat := none
  /-- When the raise in progress first committed a target (R123). -/
  raiseAt : Option Nat := none
  /-- When F_CUR was first above F_PERMIT after a lowering (R43). -/
  lateAt : Option Nat := none
  /-- TARGET0 as committed, the table minimum for F-index 0 as last read (R517), and the engine's add decision for each of
  the four positions. -/
  target0 : Nat := 0
  t0min : Nat := 0
  adds : BitVec 4 := 0
  /-- Wake and sleep sequencing (R138 to R149): wake event time and the latency used in the choice; the SLO count at
  which a forecast exit starts; descent stage 1..4 and its depth; forced; exit stops at this depth; a kept wake. -/
  wakeAt : Option Nat := none
  wakeLat : Nat := 0
  exitAt : Option Nat := none
  descent : Nat := 0
  depth : Nat := 0
  forced : Bool := false
  exitTo : Nat := 0
  keptWake : Bool := false
  zeroFrames : Nat := 0
  /-- A partition mapped to the region showed a non-zero counter in the latest frame (R144). -/
  busy : Bool := false
  /-- The descent ends DARK-FAULTED with cause CAPACITY (R149). -/
  capDark : Bool := false
  /-- A wake event met the descent; it is abandoned at the next boundary (R146). -/
  abandon : Bool := false
  /-- Soft start: when the ramp reached its target (R150). -/
  ssAt : Option Nat := none
  /-- Dawn: waits inserted in the stage, the seven-wait flag, the budget in force, segment to close (R153, R154). -/
  waits : Nat := 0
  seven : Bool := false
  budget : Bool := false
  stage : Nat := 0
  /-- Reset Dusk or Dawn reversal by a block warm reset in progress (R158, R159). -/
  resetDusk : Bool := false
  toPrimed : Bool := false
  /-- DET_DEAD was cleared: the masks end when the next self-test passes (R117). -/
  maskEnd : Bool := false
  /-- WIN_FAIL: window converter out of use (R389). -/
  winFail : Bool := false
  /-- Stop sequence: when the region's start-down was committed (R314). -/
  downAt : Option Nat := none
  /-- Measured power since the last frame completion: sum over periods of VIN code × fine steps × current, and the
  periods (R268). -/
  pmSum : Int := 0
  pmN : Nat := 0
  /-- Fraction of a code left over by the slope of a forced descent, 1/1000 (R145); F_REQ in the snapshot from which the
  TARGET in force was computed; a raise was settled and quiet at the boundary of the running tick (R122). -/
  issueAcc : Nat := 0
  tgtReq : Nat := 0
  grant : Bool := false
  /-- Consecutive disagreements of the converter check; the last reading of the region's own converter; the latest
  remote reading; the converter has failed and no spare stands in (R361, R362). -/
  convRun : Nat := 0
  lastConv : Nat := 0
  remote : Nat := 0
  convBad : Bool := false
  deriving DecidableEq, Repr

/-- The fault collector's hidden state (chapter 13). -/
structure Flt where
  /-- Raised instances, newest first: source and index. -/
  insts : List (Nat × Nat) := []
  /-- Instances raised during steps 1 and 2 of a block warm reset, pending from step 3 (R399). -/
  latched : List (Nat × Nat) := []
  /-- Fault log, newest first, at most 64 (R390). -/
  log : List FltRec := []
  /-- Class R instances whose reactions wait for a service clock (R337). -/
  waiting : List (Nat × Nat) := []
  /-- SLO counts at which reactions started block resets, within the last 60 s (R385). -/
  resets : List Nat := []
  /-- CRST_REQ_N is low; block resets are suppressed until a chip reset is taken (R47, R384). -/
  chipReq : Bool := false
  /-- Step of Table 13-7 in progress, 0 when none; when it started. -/
  step : Nat := 0
  startedAt : Nat := 0
  /-- FAULT_N held low by the always-on power-up (R60). -/
  powerUp : Bool := true
  /-- FIRST_SRC and LAST_SRC (R401). -/
  first : Nat := 0
  latest : Nat := 0
  deriving DecidableEq, Repr

/-- What the sequencer runs (R186, R191). -/
inductive Run where
  | none
  | init
  | tick
  deriving DecidableEq, Repr

/-- An accumulator cell: its exact sum at scale 306, and its four marks (R223). -/
structure Cell where
  sum : Int := 0
  nan : Bool := false
  bigC18 : Bool := false
  bigW36 : Bool := false
  bigI16 : Bool := false
  deriving DecidableEq, Repr

/-- How an instruction uses the pipeline: its unit, occupancy, the delay of its result and its drain; the blocks it
reads and writes; the accumulators it waits for, adds to, and writes; the blocks an array reads throughout; and the
issue slots it takes (R179, R184, R195); `mem` is the memory whose port it reads through, 0 where it reads none. -/
structure Issue where
  unit : Nat := 0
  mem : Nat := 0
  occ : Nat := 1
  res : Nat := 1
  drain : Nat := 0
  rd : List Nat := []
  wr : List Nat := []
  rdA : List Nat := []
  wrA : List Nat := []
  wrX : List Nat := []
  inB : List Nat := []
  slots : Nat := 1
  deriving DecidableEq, Repr

/-- What has moved the pipeline in the running program: an issue from a program counter with its port's stall cycles, or stall
cycles that the next access on a memory's port meets. -/
inductive Beat where
  | issue (pc : Nat) (i : Issue) (extra : Nat)
  | late (mem cycles : Nat)
  deriving DecidableEq, Repr

/-- The pipeline's timing, in cycles of the running program (R184, Table 6-8): the earliest next issue; by unit, the
cycle it is free; by memory, the stall cycles that the next access on its port will meet; by block, the cycle its value is usable and the cycle
until which an array reads it; by accumulator, the cycle the arrays and ACXW have left it; the cycle at which every
instruction so far has ended its occupancy and drain. -/
structure Pipe where
  next : Nat := 0
  busy : SMap Nat := []
  late : SMap Nat := []
  ready : SMap Nat := []
  reading : SMap Nat := []
  acc : SMap Nat := []
  accX : SMap Nat := []
  done : Nat := 0
  deriving DecidableEq, Repr

/-- The control engine and its memories (chapters 6 and 7). -/
structure Eng where
  /-- Program, state, coefficient, table and weight memory, by word (Table 6-2). -/
  pm : SMap MWord := []
  sm : SMap MWord := []
  cm : SMap MWord := []
  tm : SMap MWord := []
  wm : SMap MWord := []
  /-- The engine clock stands: Yalga's sleep, or a loss of PLL-E (R20, R336). -/
  clockStopped : Bool := false
  /-- The cycle after the previous boundary at which it stopped, until the next one: no cycle counts beyond it (R481). -/
  stopCycle : Option Nat := none
  /-- A restart event has come while the engine clock stands (R20, R192). -/
  restartReq : Bool := false
  /-- The program running, its counter, and the running loop: first and last instruction and passes left (Table 6-1). -/
  run : Run := .none
  pc : Nat := 0
  loopTop : Nat := 0
  loopEnd : Nat := 0
  loopLeft : Nat := 0
  pipe : Pipe := {}
  /-- The cycle at which the program could first issue, and what has moved its pipeline, newest first (R190). -/
  cycle0 : Nat := 0
  trail : List Beat := []
  /-- The instruction words whose fetch in the running program met a corrected error (R170, R190). -/
  fetched : List Nat := []
  /-- Entry points of INIT and TICK, of the program section (R191, R414). -/
  initEntry : Nat := 0
  tickEntry : Nat := 0
  /-- Pending copies of persistent rows, by bank × 256 + row (R172). -/
  smPend : SMap (Option BRow) := []
  /-- Block registers by slice × 128 + block × 4 + row, accumulator cells by ((slice × 4 + AC) × 1024 + output) × 64 +
  lane, scalars by slice × 16 + number, and S0..S7 as INIT left them (R173). -/
  blk : SMap BRow := []
  acc : SMap Cell := []
  scal : SMap Nat := []
  saved : SMap Nat := []
  /-- Sticky flags of the slices (R217). -/
  inv : BitVec 4 := 0
  ovf : BitVec 4 := 0
  /-- Output buffer and committed outputs by (field × 4 + row) × 256 + region, and the fields written in the tick
  (R182). -/
  outBuf : SMap Nat := []
  outCom : SMap Nat := []
  wrote : List Nat := []
  /-- Messages queued in the tick and messages committed but not yet moved to the transmit buffer: words 0 and 1 (R183,
  R465). -/
  sends : List (Nat × Nat) := []
  sendQ : List (Nat × Nat) := []
  /-- Engine program events of the tick (R188). -/
  events : List Nat := []
  /-- Draws of PRNG issued in the tick (R477). -/
  prngJ : Nat := 0
  /-- Stall cycles of the tick; the cycle at which TWAIT issued; marks of an uncorrectable word and of an array
  mismatch; consecutive aborted ticks (R188 to R190). -/
  stalls : Nat := 0
  twaitAt : Option Nat := none
  ueMark : Bool := false
  mismatch : Bool := false
  aborts : Nat := 0
  /-- The array whose check mismatched in the previous tick, under test in this one (R194). -/
  suspect : Option Nat := none
  /-- A phase spare is to be mapped at the boundary: two stall cycles (R190). -/
  mapStall : Bool := false
  /-- Corrected errors: time of the last, by memory × 2^20 + word; words due for a remap;
  words copied to a spare row and waiting for the boundary; words served by a spare row (R394). -/
  corrAt : SMap (Option Nat) := []
  remapDue : List MemWord := []
  copied : List MemWord := []
  remapped : List MemWord := []
  /-- The word a host-window read is fetching (R198). -/
  mread : Option MemWord := none
  /-- ENG_MADDR has named no word since the last read that completed: ENG_MDATA reads as zeros (R198). -/
  noWord : Bool := false
  /-- Ports on which the scrubber and the host window have taken a cycle in the tick (Table 6-10). -/
  scrubHit : List Nat := []
  hostHit : List Nat := []
  /-- Time of the last boundary; the next boundary is the first after INIT (R160). -/
  boundAt : Nat := 0
  /-- Boundaries whose snapshot a tick has read, counted (R471). -/
  bounds : Nat := 0
  firstDue : Bool := false
  /-- Static count of TICK (R185). -/
  static : Nat := 0
  /-- Cause of the previous tick's abort (Table 16-5). -/
  cause : Nat := 0
  deriving DecidableEq, Repr

/-- The ring configuration section (R468): N, MEMBER_ID, ALLOC_ID, BACKUP_ID and its flag, ENT, PGROUP and its other
scalars as the registers they set, and the tables of FLOOR, MAX and F-index frequency. -/
structure RingCfg where
  writes : List (Nat × Word)
  floors : List Nat
  maxes : List Nat
  freqs : List Nat
  deriving DecidableEq, Repr

/-- What a load has read and holds for the acceptance of the image (Table 14-5, R414). -/
structure Staged where
  /-- The limits section: margin table, register writes in order, PMBus table: speed of 1 MHz, addresses, start list. -/
  margin : List Byte := []
  writes : List (Nat × Word) := []
  fast : Bool := false
  devs : List Nat := []
  start : List PmbWrite := []
  /-- Calibration: c25 and c105 by sensor, zero code and R_path (1/16 mΩ) by position, ADC_COEF by converter. -/
  temps : List (Nat × Nat) := []
  phs : List (Nat × Nat) := []
  coefs : List Word := []
  /-- Group byte by region and REG_GLAT by group; none when the section is absent or failed. -/
  groups : Option (List Nat × List Word) := none
  ring : Option RingCfg := none
  /-- DET of the bank header; the operating table section has passed; calibration results, and whether the table, have been taken
  from the journal. -/
  det : Bool := false
  tableOk : Bool := false
  calJ : Option (List Word) := none
  tableJ : Bool := false
  deriving DecidableEq, Repr

/-- A commit that runs (R428): its flash operations still to do, the first in progress when `opAt` is given; the kinds
frozen; SEQ, banks and valid bits of its record; the bank and slot the record goes to. -/
structure Commit where
  ops : List FlashOp
  opAt : Option Nat := none
  kinds : BitVec 4
  seq : Nat
  banks : BitVec 4
  valid : BitVec 4
  lens : List Nat
  crcs : List Nat
  recBank : Nat
  slot : Nat
  deriving DecidableEq, Repr

/-- The image loader, its journal and the PMBus host (chapter 14). -/
structure Img where
  /-- The set-point S_n of minimum safe mode, by region (R419). -/
  sn : SMap Nat := []
  /-- The wear log, oldest first, in the always-on domain (R397). -/
  wear : List WearRec := []
  /-- Kinds whose content has changed since the last completed commit, or that the host has asked for, by bit (R426). -/
  pend : BitVec 4 := 0
  /-- An image has been accepted, and not since abandoned (R417). -/
  accepted : Bool := false
  /-- Start-up waits for FIO (Table 14-7). -/
  waitFio : Bool := false
  /-- Stage of the load: 0 none, 1 the flash is awaited and read, 2 the digest is being formed, 3 the wait of R417; when
  XSPI_RESET_N rose; the flash has reported ready; the memory test has ended. -/
  stage : Nat := 0
  rose : Nat := 0
  flashRdy : Bool := false
  memTested : Bool := false
  /-- The computed digest equals the header's; every section passed its CRC; when DIGEST_READY was set; IMG_UNTRUSTED is
  due if the pin does not rise (R416, R417). -/
  digestOk : Bool := false
  allPassed : Bool := false
  digestAt : Nat := 0
  trustDue : Bool := false
  staged : Staged := {}
  /-- The wear log has been taken from the journal or kept, and its substitutions applied since the last reset of the
  weave domain (R397, R430). -/
  applied : Bool := false
  /-- An always-on power-up has not yet taken its logs from the journal (R430). -/
  cold : Bool := true
  /-- AUTH of the primary header (R441). -/
  auth : List Byte := []
  /-- Of the newest commit record: length and CRC of each kind, the kinds it marks as journaled, their banks, its bank; the first erased slot of each record area; the
  running commit; abandoned commits in a row; when the last commit ended (R427 to R429). -/
  lens : List Nat := [0, 0, 0, 0]
  crcs : List Nat := [0, 0, 0, 0]
  jvalid : BitVec 4 := 0
  jbanks : BitVec 4 := 0
  recBank : Option Nat := none
  slotA : Nat := 0
  slotB : Nat := 0
  commit : Option Commit := none
  fails : Nat := 0
  endedAt : Option Nat := none
  /-- Re-characterisation: staged entries by index; writes since ENTRY 0 was written; staging or its commit holds trace
  memory; its commit is pending (R432). -/
  rc : SMap Nat := []
  rcCount : Option Nat := none
  rcHold : Bool := false
  rcDue : Bool := false
  /-- The margin table MC of the limits section, and the registers that section wrote at the last acceptance (R414). -/
  margin : List Byte := []
  limitRegs : List Nat := []
  /-- PMBus: 1 MHz; addresses; start list; its writes sent, in order; the list is due after an acceptance; failed polls in a
  row by device; when a device was marked FAILED; retries of each device's transfer, and of the host's at index 8. -/
  fast : Bool := false
  devs : List Nat := []
  start : List PmbWrite := []
  sent : List PmbWrite := []
  startDue : Bool := false
  pollFails : SMap Nat := []
  failedAt : SMap (Option Nat) := []
  tries : SMap Nat := []
  /-- VOUT_MODE by device, and the host transfer queued or running: its PMB_CTL word and its data (R433, R435). -/
  vmode : SMap (Option Nat) := []
  xfer : Option (Word × Nat) := none
  deriving DecidableEq, Repr

/-- The content of a STATE record (Table 16-8), with rows 0..653 of every state memory bank as words. -/
structure TrcState where
  tickno : Nat
  seed : Nat
  chip : BitVec 64
  gen : Word
  digest : List Word
  tickLen : Nat
  arrays : Nat
  det : Nat
  flags : Nat
  sm : SMap MWord
  deriving DecidableEq, Repr

/-- A record of trace memory (R479 to R484): the header's fields, the coded body of a TICK or KEY record, the rows it decodes
to, lane i of 256 at bits [18i + 17 : 18i], and the content of a STATE record. -/
structure TrcRec where
  kind : Nat
  flags : Nat := 0
  len : Nat := 1
  tickLo : Nat := 0
  twait : Nat := 0
  stall : Nat := 0
  dropped : Nat := 0
  sig : Nat := 0
  body : List Byte := []
  rows : List Nat := []
  state : Option TrcState := none
  deriving DecidableEq, Repr

/-- The trace recorder and the on-chip replay (chapter 16). -/
structure Trc where
  /-- Trace memory, oldest record first, and the word at which the oldest begins. -/
  mem : List TrcRec := []
  base : Nat := 0
  /-- What has entered the coming snapshot, oldest first, and the entries not logged (R481). -/
  events : List TrcEvent := []
  dropped : Nat := 0
  /-- What entered the snapshot in use, for the record of the running tick. -/
  heldEvents : List TrcEvent := []
  heldDropped : Nat := 0
  /-- The previous record's snapshot rows, and the counters of the previous activity frame logged. -/
  rows : List Nat := []
  counters : SMap Nat := []
  /-- The recording that runs was started in RING mode (R478). -/
  ring : Bool := false
  /-- The next record is coded against zeros; ticks since the last record of RING mode. -/
  key : Bool := true
  since : Nat := 0
  /-- The STATE record is being copied; the recording ends at the next boundary; ticks left to record after the trigger. -/
  copying : Bool := false
  stopDue : Bool := false
  trigLeft : Option Nat := none
  /-- The trigger source was pending at the last boundary (R478). -/
  trigSeen : Bool := false
  /-- The words last written to the trace port, a record: the host address of each and its 16 bytes (R50, R485). -/
  sent : List (Nat × List Byte) := []
  /-- The low half last written to TRC_TICKSET_LO (R492). -/
  setLo : Nat := 0
  /-- Replay: records still to run; the one running; the key of its STATE record; the
  shadow of the committed outputs; the snapshot rows it feeds (R488). -/
  rest : List TrcRec := []
  cur : Option TrcRec := none
  rpKey : Option (BitVec 64) := none
  shadow : SMap Nat := []
  rpRows : List Nat := []
  /-- A register was written while the replay ran: its results, and the engine at the first commit after it, are
  unpredictable (R391). -/
  spoiled : Bool := false
  deriving DecidableEq, Repr

/-- The thermal guard (chapter 10). -/
structure Thm where
  /-- Step of the stop sequence of R313: 0 none, 1 waiting for the acknowledgement, 3 waiting for the commit of step 3,
  4 regions going down; when the sequence was decided. -/
  stopStep : Nat := 0
  stopAt : Nat := 0
  /-- c25 and c105 of each sensor; none while nominal codes stand (R300, R301). -/
  cal : SMap (Option (Nat × Nat)) := []
  /-- Readings of each sensor and of each region over the last 110 samples, newest first, 0.25 °C (R304, R308). -/
  hist : SMap (List Int) := []
  rhist : SMap (List Int) := []
  /-- Filtered differences, in 1/1024 of 0.25 °C: of each sensor from its neighbours (R305), and of each region's
  neighbours from the weave's spare (R306). -/
  diff : SMap Int := []
  lead : SMap Int := []
  /-- Guard temperature of each region, 1/100 of 0.25 °C; THROTTLE in force at the last sample, °C (R309). -/
  tg : SMap Int := []
  thr : Int := 95
  /-- The flash window closed and has not held for 10 ms since; when it last opened (R317); CTRL_WV at the last sample (R318). -/
  flashShut : Bool := false
  windowAt : Nat := 0
  ctrlWv : Nat := 0
  /-- What stood above its threshold at the last sample: THROTTLE by region, STOP by 256 + region, the trip code by 512 + sensor
  (R20). -/
  overs : List Nat := []
  deriving DecidableEq, Repr

/-- The clock sources (chapter 11). -/
structure Clk where
  /-- The forcing of a loss of the active phase loop is in force (R333), since when, and whether it collapsed (R334). -/
  forcing : Bool := false
  failAt : Nat := 0
  collapsed : Bool := false
  /-- ISSUE_LIMIT is still held at 0 after the loss: 2 until a snapshot shows drive resumed, then 1 until the commit of that tick;
  when drive last resumed (R334). -/
  issueHold : Nat := 0
  resumedAt : Nat := 0
  /-- DROOP_ASSERT is held high in every region after a loss of the active phase loop (R333, R334). -/
  assertAll : Bool := false
  /-- The engine clock is stopped under R20. -/
  sleeping : Bool := false
  /-- The depth choice in force uses the column for stopped clocks (R140). -/
  stoppedCol : Bool := false
  /-- When the droop delay chains were last calibrated, and against which loop (R120). -/
  chainAt : Option Nat := none
  chainLoop : Nat := 0
  /-- By source 0 to 7, in the order of the ready flags: lost and not yet back in its role; monitor windows in a row, up to 2, that
  found it in band; when it last became ready (R327 to R329). -/
  lost : BitVec 8 := 0
  inBand : SMap Nat := []
  readyAt : SMap (Option Nat) := []
  /-- Start of the holdover (R331). -/
  holdAt : Nat := 0
  /-- The service domain stands: neither FIO nor PLL-E is available (R337). -/
  svcStopped : Bool := false
  /-- Gate enables in force, as bits of CLK_GATE, since the last change of power mode (R343). -/
  gate : Word := 0x36FB
  /-- Spread settings in force since the last turning point: DEPTH, RATE, DITHER, and the length of the present half of the triangle
  in ns (R339, R476). -/
  sscDepth : Nat := 0
  sscRate : Nat := 0
  sscDither : Bool := false
  sscHalf : Rat := 50000
  /-- The always-on latch of the hardware draws: the spread dither, and DITHER_BIT of each region (R476). -/
  sscDraw : BitVec 5 := 0
  plaitDraw : BitVec 256 := 0
  deriving DecidableEq, Repr

/-- The hint state of a group (R229): LEVEL and crossing of the last FORECAST; LEAD in ns and crossing of the last
FORECAST or BARRIER_EXIT; crossing of the last BARRIER_EXIT; the boundary whose snapshot first held each, for
deterministic mode (R471); TAG; open barriers, oldest first, with the SLO count of their entry (R230, R231); a WAKE not
yet in force (R137); hints accepted since the last boundary. -/
structure Hint where
  level : Nat := 0
  fcAt : Option Nat := none
  fcB : Option Nat := none
  lead : Nat := 0
  leadAt : Option Nat := none
  leadB : Option Nat := none
  exAt : Option Nat := none
  exB : Option Nat := none
  tag : Nat := 0
  openBars : List (Nat × Nat) := []
  wake : Option Nat := none
  count : Nat := 0
  deriving DecidableEq, Repr

/-- A frame in the transmit buffer (R452): whether its first transmission has started, when it was last sent, and its
resends. -/
structure TxFrame where
  frame : Frame
  started : Bool := false
  sentAt : Nat := 0
  resends : Nat := 0
  /-- A CAP frame that a write of LIMIT asked for (R456). -/
  urgent : Bool := false
  deriving DecidableEq, Repr

/-- What a member knows of member `i` (R457, R462, R466): its last CAP and when it came; the share last sent to it, and
the shares of the last 13 turns with their times; its last PACE; the words of its last PROG. -/
structure Peer where
  capAt : Option Nat := none
  avg : Nat := 0
  limit : Nat := 0
  capped : Bool := false
  share : Nat := 0
  shares : List (Nat × Nat) := []
  rate : Nat := 0xFFFF
  rateAt : Option Nat := none
  word0 : Nat := 0
  word1 : Nat := 0
  /-- SEQ of the last 16 frames from it (R452). -/
  seen : List Nat := []
  deriving DecidableEq, Repr

/-- The ring member (chapter 15). Times are ns. -/
structure Hoop where
  /-- The ring configuration section passed, and its tables (R468). -/
  cfgOk : Bool := false
  floors : SMap Nat := []
  maxes : SMap Nat := []
  freqs : SMap Nat := []
  /-- HOOP_BYP_N is driven high, since when, and when it last fell (R454). -/
  bypOpen : Bool := false
  openAt : Nat := 0
  fellAt : Option Nat := none
  /-- Since when idles go out on both lanes before the pin rises (R454). -/
  idleAt : Option Nat := none
  /-- The symbols last sent on both lanes: a frame and the idle after it (R450). -/
  wire : List Symbol := []
  /-- The payload of the CAP frame last sent, which a block warm reset repeats (R467). -/
  capLast : Option (List Byte) := none
  /-- When each lane last showed an error or was out of alignment (R449). -/
  errAt0 : Nat := 0
  errAt1 : Nat := 0
  /-- Transmit buffer, oldest first, and the count of first transmissions (R450, R452). -/
  tx : List TxFrame := []
  seq : Nat := 0
  /-- First transmissions with their types (a CAP sent for a change of LIMIT counts apart), newest first (R455). -/
  sentLog : List (Nat × Nat) := []
  /-- The frame last forwarded (R451). -/
  fwd : Option Frame := none
  /-- When an own frame last returned (R453). -/
  backAt : Option Nat := none
  /-- The last BUDGET naming the member: share and time; and the share of the last evaluation (R460). -/
  budget : Option (Nat × Nat) := none
  shareNow : Nat := 0
  /-- What is known of each member. -/
  peers : SMap Peer := []
  /-- Allocation: acting, and when a BUDGET of another member was last heard (R459). -/
  acting : Bool := false
  budHeard : Option Nat := none
  allocAt : Option Nat := none
  /-- Pace: when a PACE was last sent, and whether one with a rate has been sent since CAPPED last rose (R461). -/
  paceAt : Option Nat := none
  paced : Bool := false
  wasCapped : Bool := false
  /-- Consecutive frames with a bad CRC on each lane, and whether the monitored lane has shown one since the last frame that was taken
  from the active one (R449). -/
  badRun0 : Nat := 0
  badRun1 : Nat := 0
  badNew : Bool := false
  deriving DecidableEq, Repr

/-- A cap's sliding window (R273): energies in W·ns of the completed bins, newest first, at most 64; the energy of the
bin being filled and when it began; and whether the cap is applied. -/
structure CapWin where
  bins : List Rat := []
  cur : Rat := 0
  since : Nat := 0
  applied : Bool := false
  deriving DecidableEq, Repr

/-- The activity reducer (chapter 9). Powers are in W, exact. -/
structure Red where
  /-- Counters of the last good frame, by 16 × partition + counter; zeros are not listed (R32, R34). -/
  counters : SMap Nat := []
  /-- When the last good frame completed, or the image was accepted; whether a good frame has come since acceptance;
  the counters are held (R34, R270). -/
  frameAt : Nat := 0
  goodFrame : Bool := false
  held : Bool := false
  /-- Boundary whose snapshot first held the frame (R471). -/
  frameB : Option Nat := none
  /-- The previous update (R269). -/
  updAt : Nat := 0
  /-- Results of the last run: residual by weave; estimate, corrected, measured and leakage power by region; activity
  level by region; features by weave × 8 + j; chip power and scale (R265 to R273). -/
  resid : SMap Rat := []
  pest : SMap Rat := []
  pcor : SMap Rat := []
  pmeas : SMap Rat := []
  pleak : SMap Rat := []
  level : SMap Nat := []
  feat : SMap Rat := []
  pnow : Rat := 0
  scale : Rat := 4
  fast : CapWin := {}
  slow : CapWin := {}
  win : Nat := 10
  /-- Consecutive frames of the CAP_FLOOR condition (R275). -/
  floorRun : Nat := 0
  /-- What is left of a µJ in the energy counters, by the address of the LO half; a frame of a chip reset was missed (R282). -/
  frac : SMap Rat := []
  gapDue : Bool := false
  /-- The words in force of the registers whose writes act at the next frame completion (R264, R284). -/
  cfg : SMap Word := []
  deriving DecidableEq, Repr

/-- The converter subsystem (chapter 12): AUX0..AUX3 readings away from their median in a row; auxiliary converters
started by their timer in place of a PWM event (R356); the calibration point running, its VFULL, and the stored ZERO
means in 1/16 code (R364). -/
structure Adc where
  auxRun : SMap Nat := []
  auxTimer : BitVec 16 := 0
  /-- By auxiliary converter: the word of ADC_AUXTRIG in force; the running conversion, as the time of its trigger and the fine steps
  to its start; the SLO cycles its timer has counted; the last event of its phase (R352, R356, R367). -/
  auxCfg : SMap Word := []
  auxBusy : SMap (Option (Nat × Nat)) := []
  auxCount : SMap Nat := []
  auxEvAt : SMap Nat := []
  /-- By auxiliary converter the value of its last result, in units of 0.5 mV (R354); which of AUX0..AUX3 have a result since their
  reference last settled (R354). -/
  volts : SMap Rat := []
  vinFresh : BitVec 4 := 0
  /-- Calibration results have not been written to flash yet, and the flash-write window has been closed for them (R365). -/
  journalDue : Bool := false
  journalWait : Bool := false
  full : Bool := false
  vfull : Nat := 0
  zero : SMap Nat := []
  zeroOk : Bool := false
  deriving DecidableEq, Repr

/-- The snapshot of a boundary (R21): a copy of the state its rows are read from, with the time of the boundary, that of
the boundary before, and whether it is the first after INIT. -/
structure Snap where
  now : Nat := 0
  prevAt : Nat := 0
  prevStop : Option Nat := none
  first : Bool := false
  regs : SMap Word := []
  eff : SMap Word := []
  rgn : SMap Rgn := []
  ph : SMap Ph := []
  wv : SMap Wv := []
  hint : SMap Hint := []
  hoop : Hoop := {}
  red : Red := {}
  thm : Thm := {}
  deriving DecidableEq, Repr

/-- The block: everything the spec gives it but the queue of commands. -/
structure Block where
  /-- Time of the latest event, ns since VIN good. -/
  now : Nat := 0
  /-- SLO cycles since always-on power-up (R514). -/
  slo : Nat := 0
  /-- The model's own count of free values drawn; not state of the spec. -/
  freeCtr : Nat := 0
  /-- The host window (R4): words that differ from their reset words. -/
  regs : SMap Word := []
  /-- Words in force of the registers whose writes act at a tick boundary (R92, R125, R137, R161). -/
  eff : SMap Word := []
  /-- Read data of the register port, and the latches of the HI halves (R25, R204, R282, R437). -/
  rdata : Word := 0
  tickHi : Word := 0
  chipHi : Option Word := none
  energyHi : SMap (Option Word) := []
  /-- VIN good and always-on domain up (R424, R60). -/
  vinGood : Bool := false
  aonUp : Bool := false
  /-- Pins: QUIESCE_REQ, QUIESCE_ACK, CRST_N taken and its sequence running. -/
  quiesceReq : Bool := false
  quiesceAck : Bool := false
  inReset : Bool := false
  resetAt : Nat := 0
  /-- EXTEST holds every phase SAFE and every header open until a chip reset (R61). -/
  extest : Bool := false
  /-- Levels of the pins IMG_TRUSTED (R49) and TRST_N, low (R61). -/
  trustedPin : Bool := false
  trstLow : Bool := false
  /-- The sleep request of a group that waits for the boundary: 0 none, 1 SLEEP, 2 SLEEP with FORCE (R161). -/
  gsleep : SMap Nat := []
  /-- W1C bits of the power-state registers written 1, by address, which clear at the boundary (R161). -/
  clearDue : SMap Word := []
  /-- Hints accepted whose crossing waits for the engine clock, with the time and the SLO count of their acceptance,
  oldest first (R28). -/
  hintQ : List (Nat × Nat × BitVec 64) := []
  /-- Test access port instruction: 0 BYPASS, 1 SAMPLE/PRELOAD, 2 EXTEST, 3 IDCODE; and the register it selects. -/
  tapInstr : Nat := 0
  tapOut : Nat := 0
  rgn : SMap Rgn := []
  ph : SMap Ph := []
  wv : SMap Wv := []
  flt : Flt := {}
  eng : Eng := {}
  img : Img := {}
  thm : Thm := {}
  clk : Clk := {}
  /-- Hint state by group (R229). -/
  hint : SMap Hint := []
  hoop : Hoop := {}
  red : Red := {}
  adc : Adc := {}
  /-- The snapshot latched at the last boundary at which a tick started (R21). -/
  snap : Snap := {}
  trc : Trc := {}
  /-- When the always-on domain came up (R390). -/
  aonAt : Nat := 0
  deriving DecidableEq, Repr

/-- The machine's state: the block, and the commands that are waiting, first in first out. -/
structure State where
  pending : List Instr := []
  blk : Block := {}
  deriving DecidableEq, Repr

/-- Reasons a step stops. The block has none: every condition the spec calls a fault is state of its collector. -/
inductive Fault where
  /-- Raised by no command. Safe. -/
  | none
  deriving DecidableEq, Repr

/-- Reasons a command has no meaning. Every row of the table has one. -/
inductive Refusal where
  /-- Raised by a command the model gives no meaning yet. Safe: the machine stops. -/
  | notModelled (mnemonic : String)
  deriving DecidableEq, Repr

/-- The block before VIN is good: every register at its reset word, every record at its first value.
DESIGN CHOICE, log 6, 16. -/
def State.reset : State := { pending := [], blk := {} }

end Sys2Proof.Machine
end

