-- ==== Sys2Proof/Machine/Ops.lean ====
section
/-! DEFINITION. The named operations over the block: fields of the host window, the words in force, the records of
regions, phases and weaves, and the outcome of a command. -/

namespace Sys2Proof.Machine

/-- The bits of a field in a word, in their place. -/
def Fld.mask (f : Fld) : Word := (BitVec.ofNat 32 (2 ^ (f.hi + 1 - f.lo) - 1)) <<< f.lo

/-- The value of a field of a word. -/
def Fld.get (f : Fld) (w : Word) : Nat := ((w &&& Fld.mask f) >>> f.lo).toNat

/-- The word with a field set, the value taken modulo the field's width. -/
def Fld.put (f : Fld) (w : Word) (v : Nat) : Word :=
  (w &&& ~~~(Fld.mask f)) ||| ((BitVec.ofNat 32 v <<< f.lo) &&& Fld.mask f)

/-- The word held at a register address. -/
def Block.reg (b : Block) (a : Nat) : Word := b.regs.get resetWord a

/-- The block with a word held at a register address. -/
def Block.setReg (b : Block) (a : Nat) (w : Word) : Block := { b with regs := b.regs.set resetWord a w }

/-- A field of element `i` of a register array. -/
def Block.fld (b : Block) (f : Fld) (i : Nat := 0) : Nat := Fld.get f (b.reg (f.base + 4 * i))

/-- A one-bit field as a Boolean. -/
def Block.bit (b : Block) (f : Fld) (i : Nat := 0) : Bool := b.fld f i != 0

/-- The block with a field of element `i` of a register array set. -/
def Block.put (b : Block) (f : Fld) (v : Nat) (i : Nat := 0) : Block :=
  b.setReg (f.base + 4 * i) (Fld.put f (b.reg (f.base + 4 * i)) v)

/-- A counter field that wraps modulo its width. -/
def Block.incr (b : Block) (f : Fld) (i : Nat := 0) : Block := b.put f (b.fld f i + 1) i

/-- A counter field that saturates at its greatest value. -/
def Block.incrSat (b : Block) (f : Fld) (i : Nat := 0) : Block :=
  if b.fld f i + 1 < 2 ^ (f.hi + 1 - f.lo) then b.put f (b.fld f i + 1) i else b

/-- A field in force, for the registers whose writes act at a tick boundary (R92, R125, R161). -/
def Block.efld (b : Block) (f : Fld) (i : Nat := 0) : Nat :=
  Fld.get f (b.eff.get resetWord (f.base + 4 * i))

/-- Registers whose writes take effect at the next tick boundary: WV_PLAIT and WV_WEAR_CFG (R92), REG_DROOP,
REG_SENSE_CFG, WV_LOOP and WV_COMP (R125), REG_PCTL, REG_GROUP, REG_GLAT and WV_DAWN (R137, R161), TRC_CFG and TRC_SEED
(R492), HOOP_PACE (R469), PWR_PREF, PWR_SLOPE and PWR_CAP_CFG (R284; of the last only CAP_MIN). -/
def tickDelayed (a : Nat) : Bool :=
  [(0xC400, 0xC43C), (0xC500, 0xC500), (0x1C00, 0x1FFC), (0x2400, 0x27FC), (0xC540, 0xC5BC), (0x3000, 0x387C),
   (0xC5C0, 0xC5FC), (0x10108, 0x10110), (0x3C010, 0x3C010), (0x2000C, 0x20010), (0x20300, 0x204FC)].any (fun r => r.1 ≤ a && a ≤ r.2)

/-- Every word written so far comes into force. -/
def Block.applyWrites (b : Block) : Block := { b with eff := b.regs.filter (fun e => tickDelayed e.1) }

/-- The record of region `n`. -/
def Block.R (b : Block) (n : Nat) : Rgn := b.rgn.get (fun _ => {}) n

/-- The block with the record of region `n` changed. -/
def Block.modR (b : Block) (n : Nat) (f : Rgn → Rgn) : Block :=
  { b with rgn := b.rgn.set (fun _ => {}) n (f (b.R n)) }

/-- The record of phase position `p`. -/
def Block.P (b : Block) (p : Nat) : Ph := b.ph.get (fun _ => {}) p

/-- The block with the record of phase position `p` changed. -/
def Block.modP (b : Block) (p : Nat) (f : Ph → Ph) : Block :=
  { b with ph := b.ph.set (fun _ => {}) p (f (b.P p)) }

/-- The record of weave `w`. -/
def Block.W (b : Block) (w : Nat) : Wv := b.wv.get (fun _ => {}) w

/-- The block with the record of weave `w` changed. -/
def Block.modW (b : Block) (w : Nat) (f : Wv → Wv) : Block :=
  { b with wv := b.wv.set (fun _ => {}) w (f (b.W w)) }

/-- A change made for each index of a list, in order. -/
def Block.each (b : Block) (ks : List Nat) (f : Block → Nat → Block) : Block := ks.foldl f b

/-- A change made under a condition. -/
def Block.when (b : Block) (c : Bool) (f : Block → Block) : Block := if c then f b else b

/-- The 256 regions, the 16 weaves, the 32 groups, the 1,088 phase positions (Table 1-2). -/
def regions : List Nat := List.range 256
def weaves : List Nat := List.range 16
def groups : List Nat := List.range 32
def phases : List Nat := List.range 1088

/-- The weave of a region, and the regions of a weave (R10). -/
def weaveOf (n : Nat) : Nat := n / 16
def regionsOf (w : Nat) : List Nat := (List.range 16).map (16 * w + ·)

/-- The quadrant of a region (R10). -/
def quadOf (n : Nat) : Nat := n / 64

/-- Time passes to `t`; events are never earlier than the last. DESIGN CHOICE, log 2. -/
def Block.setNow (b : Block) (t : Nat) : Block := { b with now := max b.now t }

/-- An integer held within bounds. -/
def clampI (lo hi x : Int) : Int := max lo (min hi x)

/-- A natural number held within bounds. -/
def clampN (lo hi x : Nat) : Nat := max lo (min hi x)

/-- Division rounded to the nearest integer, halves away from zero. -/
def roundDiv (a : Int) (d : Nat) : Int :=
  if a ≥ 0 then (2 * a + d) / (2 * d) else -((2 * (-a) + d) / (2 * d))

/-- A rounding to the nearest integer whose ties the spec does not settle: the free bit of the site decides a tie.
DESIGN CHOICE, log 9. -/
def nearest (site : Nat) (num : Int) (den : Nat) : Int :=
  let q := num / (den : Int)
  let r := 2 * (num % (den : Int))
  if r < den then q else if r > den then q + 1 else if Config.roundUp site num den then q + 1 else q

/-- A rounding of which the spec states nothing: one of the two integers beside the value, by the site's free bit.
DESIGN CHOICE, log 9. -/
def rounded (site : Nat) (x : Rat) : Int :=
  let q := x.num / (x.den : Int)
  if x.num % (x.den : Int) = 0 then q else if Config.roundUp site x.num x.den then q + 1 else q

/-- One sample of a first-order filter whose time constant is `n` samples: its gain lies between those of the backward and the
forward difference, and the spec does not state which form is built (R88). DESIGN CHOICE, log 12. -/
def filterStep (n : Nat) (y x : Rat) : Rat :=
  y + (x - y) * max (1 / ((n : Rat) + 1)) (min (1 / (n : Rat)) (Config.filterGain n))

/-- A signed value read from a field of `k` bits. -/
def signed (k v : Nat) : Int := if v < 2 ^ (k - 1) then (v : Int) else (v : Int) - 2 ^ k

/-- A signed value as a field of `k` bits. -/
def unsigned (k : Nat) (x : Int) : Nat := (x % 2 ^ k).toNat

/-- The build sampled at image load is Yalga-V (R3). -/
def Block.isV (b : Block) : Bool := b.bit CFG_STRAP_BUILD

/-- The next free value, and the block that has drawn it. DESIGN CHOICE, log 8. -/
def Block.draw (b : Block) : Word × Block := (Config.freeWord b.freeCtr, { b with freeCtr := b.freeCtr + 1 })

/-- The outcome of a command that changes the block by `f` and leaves the queue alone. -/
def State.run (s : State) (f : Block → Block) : Host.Outcome State Fault Refusal :=
  .next { s with blk := f s.blk }

end Sys2Proof.Machine
end

