-- ==== Sys2Proof/Machine/Prng.lean ====
section
/-! DEFINITION. The keyed PRNG (R475 to R477), and TICKNO. -/

namespace Sys2Proof.Machine

/-- TICKNO (R204). -/
def Block.tickno (b : Block) : Nat := b.fld ENG_TICKNO_LO_VAL + 2 ^ 32 * b.fld ENG_TICKNO_HI_VAL

/-- The block with TICKNO set. -/
def Block.setTickno (b : Block) (t : Nat) : Block :=
  (b.put ENG_TICKNO_LO_VAL t).put ENG_TICKNO_HI_VAL (t / 2 ^ 32)

/-- The key K (R475); during an on-chip replay, that of its STATE record (R488). -/
def Block.key (b : Block) : BitVec 64 :=
  b.trc.rpKey.getD ((BitVec.ofNat 64 (b.efld TRC_SEED_LO_SEED_LO + 2 ^ 32 * b.efld TRC_SEED_HI_SEED_HI)) ^^^ Config.chipId)

/-- The constant G and the mixing function of R475. -/
def prngG : BitVec 64 := 0x9E3779B97F4A7C15
def prngMix (x : BitVec 64) : BitVec 64 :=
  let x := (x ^^^ (x >>> 30)) * 0xBF58476D1CE4E5B9
  let x := (x ^^^ (x >>> 27)) * 0x94D049BB133111EB
  x ^^^ (x >>> 31)

/-- The draw z(t, u) under key `k` (R475). -/
def prngDraw (k : BitVec 64) (t u : Nat) : BitVec 64 :=
  prngMix (prngMix (k + BitVec.ofNat 64 t * prngG) + BitVec.ofNat 64 u * prngG)

end Sys2Proof.Machine
end

