-- ==== Sys2Proof/Machine/Gates.lean ====
section
/-! DEFINITION. The power modes of the clock sources (R338, R343): the region states they follow, the sources and loops, and the
gating of each. -/

namespace Sys2Proof.Machine

/-- The state codes of Table 5-9. -/
def sDark : Nat := 0
def sSoftstart : Nat := 1
def sPrimed : Nat := 2
def sDawn : Nat := 3
def sRun : Nat := 4
def sLeaving : Nat := 5
def sDoze : Nat := 6
def sNap : Nat := 7
def sWaking : Nat := 8
def sDusk : Nat := 9
def sFaulted : Nat := 10

/-- STATE of a region (R162). -/
def Block.st (b : Block) (n : Nat) : Nat := b.fld REG_PSTATE_STATE n

/-- The clock sources and loops by number, in the order of the ready bits of CLK_STATUS (R344). -/
def kSLO : Nat := 0
def kFIO : Nat := 1
def kXA : Nat := 2
def kXB : Nat := 3
def kPLLE : Nat := 4
def kPLLP : Nat := 5
def kPLLS : Nat := 6
def kLANE : Nat := 7

/-- The block with its clock sources changed. -/
def Block.modClk (b : Block) (f : Clk → Clk) : Block := { b with clk := f b.clk }

/-- The ready flag of a source (Table 11-6). -/
def readyFld (k : Nat) : Fld := ⟨CLK_STATUS_SLO_RDY.base, k, k⟩
def Block.clkReady (b : Block) (k : Nat) : Bool := b.bit (readyFld k)

/-- The active and the standby phase loop. -/
def Block.activeLoop (b : Block) : Nat := kPLLP + b.fld CLK_STATUS_PH_ACTIVE
def Block.standbyLoop (b : Block) : Nat := kPLLS - b.fld CLK_STATUS_PH_ACTIVE

/-- The reference of the loops is left for XA, or for holdover without it (R331, R341). DESIGN CHOICE, log 39. -/
def Block.leaveRef (b : Block) : Block :=
  if b.clkReady kXA then b.put CLK_STATUS_REF 0 else (b.put CLK_STATUS_REF 3).modClk (fun c => { c with holdAt := b.now })

/-- The gate enable in force of a source in the present power mode; PLL-S carries PLL-P's enables while it is the
active loop (R338, Table 11-4). -/
def Block.gateOn (b : Block) (k mode : Nat) : Bool :=
  let g := b.clk.gate.toNat
  let fieldBit (lo : Nat) : Bool := g / 2 ^ (lo + mode) % 2 = 1
  if k = kFIO then fieldBit 0
  else if k = kXB then fieldBit 3
  else if k = kPLLE then fieldBit 6
  else if k = b.activeLoop then fieldBit 9
  else if k = b.standbyLoop then fieldBit 12
  else true

/-- The power mode of R338: 0 RUN, 1 SLEEP, 2 DEEP. -/
def Block.powerMode (b : Block) : Nat :=
  if !b.clk.sleeping then 0
  else if regions.all (fun n => b.st n = sDark || b.st n = sFaulted) then 2 else 1

/-- The block enters the power mode its state gives: CLK_GATE comes into force, and a source whose enable is 0 is
powered down (R338, R343); gating XB releases the alignment (R341); with FIO and PLL-E both down the service domain stands (R337). -/
def Block.enterMode (b : Block) : Block :=
  let m := b.powerMode
  if m = b.fld CLK_STATUS_MODE then b
  else
    let b := (b.put CLK_STATUS_MODE m).modClk (fun c => { c with gate := b.reg CLK_GATE_FIO.base })
    let b := [kFIO, kXB, kPLLE, kPLLP, kPLLS].foldl (fun b k =>
      if b.gateOn k m then b
      else
        let b := b.put (readyFld k) 0
        if k = kXB then
          let b := b.put CLK_STATUS_PSYNC_LOCKED 0
          if b.fld CLK_STATUS_REF = 1 then b.leaveRef else b
        else b) b
    if b.clkReady kFIO || b.clkReady kPLLE then b else b.modClk (fun c => { c with svcStopped := true })

end Sys2Proof.Machine
end

