-- ==== Sys2Proof/Machine/Phases.lean ====
section
/-! DEFINITION. Phase positions: conditions and mapping, entry to and exit from SAFE, the spare pool and the swap-in
queue (chapter 3, and chapter 1 on ownership). -/

namespace Sys2Proof.Machine

/-- The engine state codes of Table 6-16. -/
def eStopped : Nat := 0
def eInit : Nat := 1
def eRunning : Nat := 2
def eHalted : Nat := 3
def eClockStopped : Nat := 4
def eFailed : Nat := 5

/-- The engine is running, so that its commits carry the output stage's values (R314). -/
def Block.engineRunning (b : Block) : Bool := b.fld ENG_STATUS_STATE = eRunning

/-- The condition codes of Table 3-11. -/
def cRetired : Nat := 0
def cParked : Nat := 1
def cSwitching : Nat := 2
def cBlind : Nat := 3
def cCalibrating : Nat := 4
def cSafe : Nat := 5

/-- LOGICAL of a position that serves none (Table 3-10). -/
def noLogical : Nat := 0x7FF

/-- Populated in a build: k = 0, 1 only in Yalga-P (Table 1-2). -/
def populatedIn (v : Bool) (p : Nat) : Bool := p < 1088 && (v || p % 4 < 2)

/-- The weave of a phase position. -/
def weaveOfPhase (p : Nat) : Nat := if p < 1024 then p / 64 else (p - 1024) / 4

/-- The spare positions of a weave (Table 1-2). -/
def sparesOf (w : Nat) : List Nat := (List.range 4).map (1024 + 4 * w + ·)

/-- Every position of a weave, active and spare. -/
def phasesOf (w : Nat) : List Nat := (List.range 64).map (64 * w + ·) ++ sparesOf w

/-- A stage is fitted at the position (R93). -/
def Block.populated (b : Block) (p : Nat) : Bool := b.bit PH_STATE_POPULATED p
def Block.cond (b : Block) (p : Nat) : Nat := b.fld PH_STATE_COND p
def Block.logical (b : Block) (p : Nat) : Nat := b.fld PH_STATE_LOGICAL p

/-- In service: populated, and not RETIRED. -/
def Block.inService (b : Block) (p : Nat) : Bool := b.populated p && b.cond p != cRetired

/-- The position that serves logical position `l`: the active one, or a spare mapped to it (R12). -/
def Block.serving (b : Block) (l : Nat) : Option Nat :=
  (l :: sparesOf (weaveOfPhase l)).find? (fun p => b.inService p && b.logical p == l)

/-- The phases mapped to region `n`, by active index k = 0..3. -/
def Block.mapped (b : Block) (n : Nat) : List Nat :=
  (List.range 4).filterMap (fun k => b.serving (4 * n + k))

/-- The region a phase is mapped to. -/
def Block.regionOfPhase (b : Block) (p : Nat) : Option Nat :=
  if b.logical p < 1024 then some (b.logical p / 4) else none

/-- The active index a phase serves. -/
def Block.kOf (b : Block) (p : Nat) : Nat := b.logical p % 4

/-- Every phase in service is held in SAFE: the loss of the active phase loop, EXTEST, or a block-wide class S source
(R61, R333, R380). -/
def Block.forcedAll (b : Block) : Bool := b.clk.forcing || b.extest || b.flt.insts.any (fun e => e.1 < 3)

/-- The phase's condition changed, with the drive the condition's owner gives it (Table 1-4). While every phase is held in
SAFE it takes SAFE instead; after the loss of the active phase loop it returns to the condition kept (R15, R334). -/
def Block.setCond (b : Block) (p c : Nat) : Block :=
  let held := b.forcedAll && c != cRetired && c != cSafe
  let keep := c
  let c := if held then cSafe else c
  let d := if c = cSafe then Drive.low else if c = cSwitching || c = cBlind then Drive.loop else Drive.off
  let b := b.put PH_STATE_COND c p
  b.modP p (fun x => { x with
    drive := d
    cut := x.cut || (x.drive = .loop && d != .loop)
    shedDue := false
    saved := if held && b.clk.forcing then some keep else x.saved
    parkedAt := if c = cParked then (if x.parkedAt.isSome then x.parkedAt else some b.now) else none })

/-- The share raise of R82: the lost phase's share in fine steps, whose amount the spec does not state; it raises the duty, by no
more than the lost phase's own. DESIGN CHOICE, log 10. -/
def shareRaise (duty left : Nat) : Int := if duty = 0 then 0 else clampN 1 duty (Config.lossShare duty left)

/-- A phase enters SAFE: high side off and low side on (R80). Its region's remaining phases take up its share (R82). -/
def Block.enterSafe (b : Block) (p : Nat) : Block :=
  if !b.inService p || b.cond p = cSafe then b
  else
    let was := b.cond p
    let duty := (b.P p).duty
    let b := b.setCond p cSafe
    match b.regionOfPhase p with
    | none => b
    | some n =>
      if was = cSwitching || was = cBlind then
        let left := ((b.mapped n).filter (fun q => b.cond q = cSwitching || b.cond q = cBlind)).length
        b.modR n (fun r => { r with loss := r.loss + shareRaise duty left })
      else b

/-- The SENSE_FAIL mark of a phase stands (R84). -/
def Block.blindMark (b : Block) (p : Nat) : Bool := (b.P p).faults.getLsbD 3

/-- The condition a phase takes on leaving PARKED for service: BLIND while its SENSE_FAIL mark stands (R84). -/
def Block.onCond (b : Block) (p : Nat) : Nat := if b.blindMark p then cBlind else cSwitching

/-- A phase leaves PARKED to switch under the weave loop. -/
def Block.switchOn (b : Block) (p : Nat) : Block :=
  if b.cond p = cParked then b.setCond p (b.onCond p) else b

/-- A phase that switches is parked. -/
def Block.park (b : Block) (p : Nat) : Block :=
  if b.cond p = cSwitching || b.cond p = cBlind then b.setCond p cParked else b

/-- A phase that switches is to park, or not, when its next switching period starts (R16). -/
def Block.shedLater (b : Block) (p : Nat) (due : Bool) : Block :=
  if b.cond p = cSwitching || b.cond p = cBlind then b.modP p (fun x => { x with shedDue := due }) else b

/-- An idle spare: populated, PARKED and unmapped (R85). -/
def Block.idle (b : Block) (p : Nat) : Bool :=
  b.populated p && b.cond p = cParked && b.logical p = noLogical

/-- The idle spares of a weave, lowest number first. -/
def Block.idleSpares (b : Block) (w : Nat) : List Nat := (sparesOf w).filter b.idle

/-- The state code of a spare position in WV_POOL (Table 3-18). -/
def Block.spareState (b : Block) (p : Nat) : Nat :=
  if b.idle p then 0
  else if b.populated p && b.cond p = cCalibrating then 1
  else if b.inService p && b.cond p != cSafe && b.logical p < 1024 then 2
  else 3

/-- The in-service capacity of region `n` in units of 0.5 A: 2.5 A for each mapped SWITCHING or PARKED phase, 1.5 A
for each phase that is BLIND or parked with its SENSE_FAIL mark (R84, R87). DEDUCED, log 19, 29. -/
def Block.capacity (b : Block) (n : Nat) : Nat :=
  ((b.mapped n).map (fun p =>
    if b.cond p = cBlind then 3
    else if b.cond p = cParked then (if b.blindMark p then 3 else 5)
    else if b.cond p = cSwitching then 5 else 0)).sum

/-- The logical position of the swap-in that runs in a weave. -/
def Block.swapTarget (b : Block) (w : Nat) : Option Nat := (b.W w).run.map (·.lpos)

/-- The capacity a spare in CALIBRATING will add to region `n` (R87, R149). -/
def Block.calibratingCapacity (b : Block) (n : Nat) : Nat :=
  match b.swapTarget (weaveOf n) with
  | some l => if l / 4 = n && b.fld WV_SWAP_STAGE (weaveOf n) != 0 then 5 else 0
  | none => 0

/-- A swap-in is queued: a failure behind the failures and ahead of every planned one, a planned one last; at most
one entry for each position (R85). It waits while its region is dark or soft-starts (R87). -/
def Block.queueSwap (b : Block) (w : Nat) (s : Swap) : Block :=
  if b.swapTarget w = some s.lpos then b
  else
    let s := { s with waiting := [sDark, sFaulted, sSoftstart].contains (b.st (s.lpos / 4)) }
    b.modW w (fun x =>
      if x.queue.any (fun e => e.lpos = s.lpos && (!e.planned || s.planned)) then x
      else
        let q := x.queue.filter (fun e => e.lpos != s.lpos)
        { x with queue := if s.planned then q ++ [s]
                          else q.filter (fun e => !e.planned) ++ [s] ++ q.filter (fun e => e.planned) })

/-- Odd parity over six symbols (R71). -/
def steerParityOk (s : BitVec 6) : Bool := (List.range 6).foldl (fun p i => p ^^ s.getLsbD i) false

/-- The symbols of a steering command, the first in bit 5: CLOSE, the region index from its most significant bit, and odd parity
(R71). -/
def steerSymbols (close : Bool) (m : Nat) : BitVec 6 :=
  let v := (if close then 32 else 0) + 2 * (m % 16)
  BitVec.ofNat 6 (if steerParityOk (BitVec.ofNat 6 v) then v else v + 1)

/-- The low-side pulses of a steering command, by their widths in phase-clock steps: a start pulse of 6, and 1 or 3 for each symbol
(R71). -/
def steerPulses (s : BitVec 6) : List Nat := 6 :: (List.range 6).map (fun i => if s.getLsbD (5 - i) then 3 else 1)

/-- A stage is idle: both switches off, and ZC set (R71, R360). -/
def Block.stageIdle (b : Block) (p : Nat) : Bool :=
  b.populated p && (b.P p).drive = .off && (match (b.P p).last with | some r => r.zc | none => false)

/-- PHTRIG_PEND: a Yalga-V stage has not yet been sent its setting (R357). -/
def Block.notePend (b : Block) : Block :=
  if b.isV then b.put ADC_STATUS_PHTRIG_PEND (if phases.any (fun p => b.populated p && (b.P p).trigDue) then 1 else 0) else b

/-- The command that opens a spare's steering switch is sent once the spare is idle (R71). -/
def Block.sendOpen (b : Block) (p : Nat) : Block :=
  if (b.P p).openDue && (b.P p).steerCmd.isEmpty && b.stageIdle p then
    b.modP p (fun x => { x with steerCmd := steerPulses (steerSymbols false ((x.steer.getD 0) % 16)) })
  else b

/-- The steering switch of a spare is to open (R71, R87). -/
def Block.steerOpen (b : Block) (p : Nat) : Block :=
  (b.modP p (fun x => { x with openDue := true, steerCmd := [] })).sendOpen p

/-- The running swap-in ends without mapping, and its place in the stage register is free. -/
def Block.endSwap (b : Block) (w : Nat) : Block :=
  (b.put WV_SWAP_STAGE 0 w).modW w (fun x => { x with run := none, ramp := 0, calLog := [], calFl := false })

/-- The running swap-in goes back to the head of its class in the queue (R87). -/
def Block.requeue (b : Block) (w : Nat) (waiting : Bool) : Block :=
  match (b.W w).run with
  | none => b
  | some s =>
    let s := { s with waiting := waiting }
    (b.endSwap w).modW w (fun x =>
      { x with queue := if s.planned then x.queue.filter (fun e => !e.planned) ++ [s] ++ x.queue.filter (·.planned)
                        else s :: x.queue })

/-- The swap-ins of a region that is taken dark: the running one is aborted, its spare's switch opened and the spare
idle again unless a forcing holds it, and every queued one waits (R87). -/
def Block.abortSwaps (b : Block) (n : Nat) : Block :=
  let w := weaveOf n
  let b := match (b.W w).run with
    | some s =>
      if s.lpos / 4 = n then
        let sp := (b.W w).spare
        let b := b.steerOpen sp
        let b := if b.cond sp = cCalibrating then b.setCond sp cParked else b
        b.requeue w true
      else b
    | none => b
  b.modW w (fun x => { x with queue := x.queue.map (fun e => if e.lpos / 4 = n then { e with waiting := true } else e) })

end Sys2Proof.Machine
end

