-- ==== Sys2Proof/Machine/Regions.lean ====
section
/-! DEFINITION. Region states: the reference and the set-point followed, the issue, permit and header outputs, and the
moves between power states that events share (chapters 4 and 5). Set-points are VCODE, 0.5 mV each. -/

namespace Sys2Proof.Machine

/-- The cause codes of Table 5-8. -/
def causeShort : Nat := 1
def causeOv : Nat := 2
def causeOvc : Nat := 3
def causeCapacity : Nat := 4
def causeSs : Nat := 5

/-- The droop path is armed in a state (R14). -/
def armedIn (st : Nat) : Bool := [sRun, sLeaving, sDoze, sNap, sWaking, sDusk, sDawn].contains st

/-- A state counts as DOZE or deeper for the sleep condition (R136). -/
def dozeOrDeeper (st : Nat) : Bool := [sDoze, sNap, sDark, sFaulted, sPrimed].contains st

/-- The group of a region, in force (R11, R164). -/
def Block.groupOf (b : Block) (n : Nat) : Option Nat :=
  if b.efld REG_GROUP_VALID n = 1 && !b.bit IMG_STATUS_SAFE then some (b.efld REG_GROUP_GROUP n) else none

/-- The regions of a group. -/
def Block.groupRegions (b : Block) (g : Nat) : List Nat := regions.filter (fun n => b.groupOf n = some g)

/-- A block warm reset is in progress (Table 13-7). -/
def Block.restarting (b : Block) : Bool := b.flt.step != 0

/-- The minimum VCODE of the operating table for a region, an F-index and a band (R178). -/
def Block.tableMin (b : Block) (n f band : Nat) : Nat :=
  800 + ((b.eng.tm.get (fun _ => 0) (64 * n + f)) >>> (16 * band)).toNat % 65536 / 32

/-- The clamp of R106. -/
def vClamp (v : Nat) : Nat := clampN 800 2100 v

/-- The RUN target for F-index 0 in force (R517, R419). -/
def Block.runTarget0 (b : Block) (n : Nat) : Nat :=
  if b.bit IMG_STATUS_SAFE then vClamp (b.img.sn.get (fun _ => Config.safeVcode.toNat) n)
  else vClamp (max (vClamp (b.R n).target0) (b.R n).t0min)

/-- The output stage reads a region's table minimum for F-index 0 in its present band: at each commit and whenever the band
changes (R517). -/
def Block.readMin (b : Block) (n : Nat) : Block :=
  b.modR n (fun r => { r with t0min := b.tableMin n 0 (b.fld THM_TEMP_BAND n) })

/-- The reference of a region (R102). -/
def Block.reference (b : Block) (n : Nat) : Nat :=
  b.fld REG_VSET_APPLIED n + (if b.bit REG_STATUS_SENSE_SRC n then 2 * b.efld REG_SENSE_CFG_FB_OFS n else 0)

/-- The over-voltage ceiling: the highest reference of the last 2 µs plus 120 mV, at most 1.15 V (R108). -/
def Block.ceiling (b : Block) (n : Nat) : Nat :=
  let r := (b.R n).refs.filter (fun e => b.now ≤ e.1 + 2000)
  min (r.foldl (fun m e => max m e.2) (b.reference n) + 240) 2300

/-- The reference in force is recorded for the ceiling's 2 µs hold (R108). -/
def Block.noteRef (b : Block) (n : Nat) : Block :=
  let v := b.reference n
  b.modR n (fun r => { r with refs := (b.now, v) :: r.refs.filter (fun e => b.now ≤ e.1 + 2000 && e.2 > v) })

/-- The droop threshold below the reference in mV; below 10 acts as 10 (R115). -/
def Block.dth (b : Block) (n : Nat) : Nat := max 10 (b.efld REG_DROOP_DTH n)

/-- A reading of a region stands more than 10 mV above its droop threshold (R117). -/
def Block.aboveThreshold (b : Block) (n v : Nat) : Bool := decide ((v : Int) > (b.reference n : Int) - 2 * b.dth n + 20)

/-- The retention set-point of NAP (R148). -/
def Block.retention (b : Block) (n : Nat) : Nat :=
  max (vClamp (b.efld REG_PCTL_RET_VCODE n)) (b.runTarget0 n - 350)

/-- The slew of a weave in mV/µs (R107). -/
def Block.slew (b : Block) (w : Nat) : Nat :=
  let v := b.efld WV_LOOP_SLEW w
  if v = 0 then 1 else min v 50

/-- The value APPLIED moves toward and its rate in mV/µs, by state (Table 4-18); a descent that a block warm reset abandons is held
at its committed target (R18, R159). DESIGN CHOICE, log 17. -/
def Block.goal (b : Block) (n : Nat) : Option (Nat × Nat) :=
  let st := b.st n
  let sl := b.slew (weaveOf n)
  let t0 := b.runTarget0 n
  let tgt := b.fld REG_VSET_TARGET n
  if st = sRun then some (tgt, sl)
  else if st = sLeaving then
    (if (b.R n).descent = 4 && !b.restarting then
      (if (b.R n).depth = 1 then some (t0, sl) else if (b.R n).depth = 2 then some (b.retention n, sl) else none)
     else some (tgt, sl))
  else if st = sDoze then some (t0, sl)
  else if st = sNap then some (b.retention n, sl)
  else if st = sWaking then some (t0, 50)
  else if st = sSoftstart || st = sPrimed || st = sDawn then some (t0, 50)
  else if st = sDusk then some (t0, sl)
  else none

/-- The state of a region is changed; with the engine clock stopped the power mode follows (R338). -/
def Block.setSt (b : Block) (n st : Nat) : Block :=
  let b := b.put REG_PSTATE_STATE st n
  if b.clk.sleeping then b.enterMode else b

/-- ISSUE_LIMIT and FLOOR driven at the issue-throttle port; THR_TGL toggles when either changes (R35). -/
def Block.setThrottle (b : Block) (n issue floor : Nat) : Block :=
  b.modR n (fun r => if r.issue = issue && r.floor = floor then r
                     else { r with issue := issue, floor := floor, thrTgl := !r.thrTgl })

/-- The time since which F_CUR of a region has stood above F_PERMIT (R43). -/
def Block.noteLate (b : Block) (n : Nat) : Block :=
  let above := b.fld REG_FIDX_CUR n > b.fld REG_FIDX_PERMIT n
  b.modR n (fun r => { r with lateAt := if above then (if r.lateAt.isSome then r.lateAt else some b.now) else none })

/-- F_PERMIT driven at the clock unit handshake; P_TGL toggles when it changes (R40). From a change
that leaves F_CUR above it, the clock unit has 1 µs (R43). -/
def Block.setPermit (b : Block) (n f : Nat) : Block :=
  if b.fld REG_FIDX_PERMIT n = f then b
  else ((b.put REG_FIDX_PERMIT f n).modR n (fun r => { r with pTgl := !r.pTgl })).noteLate n

/-- A region that is down keeps its set-point until its F_PERMIT has fallen to 0, and then has none (R44). DESIGN CHOICE, log 17. -/
def Block.dropSetPoint (b : Block) (n : Nat) : Block :=
  if (b.st n = sDark || b.st n = sFaulted) && b.fld REG_FIDX_PERMIT n = 0 && b.fld REG_VSET_APPLIED n != 0 then
    (b.noteRef n).put REG_VSET_APPLIED 0 n
  else b

/-- A loss of the active phase loop holds every F_PERMIT at 0: while it forces, and up to the first snapshot that shows drive resumed
(Table 13-2). DEDUCED, log 38. -/
def Block.lossHeld (b : Block) : Bool := b.clk.forcing || b.clk.issueHold = 2

/-- A class S event or its safe state holds a region's ISSUE_LIMIT, FLOOR and F_PERMIT at 0 (Table 13-2). -/
def Block.heldZero (b : Block) (n : Nat) : Bool := b.st n = sDark || b.st n = sFaulted || b.lossHeld

/-- ISSUE_LIMIT, FLOOR and F_PERMIT of a region at 0 (R314, R380). A running engine's next commit carries them, since they
change only at a tick commit (R35, R40); otherwise the output stage applies them itself. -/
def Block.zeroOut (b : Block) (n : Nat) : Block :=
  if b.engineRunning then b else ((b.setThrottle n 0 0).setPermit n 0).dropSetPoint n

/-- The first position of a region, in cyclic order from B[n], whose phase is as `ok` says. -/
def Block.findBase (b : Block) (n : Nat) (ok : Nat → Bool) : Option Nat :=
  ((List.range 4).map (fun i => 4 * n + ((b.R n).baseK + i) % 4)).findSome? (fun l =>
    match b.serving l with
    | some p => if ok p then some p else none
    | none => none)

/-- The phase at B[n], or the next mapped phase in cyclic order that is SWITCHING or PARKED (R72, R147); with none but phases
under a SENSE_FAIL mark, one of those. DEDUCED, log 30. -/
def Block.basePhase (b : Block) (n : Nat) : Option Nat :=
  let plain (p : Nat) : Bool := b.cond p = cSwitching || b.cond p = cParked && !b.blindMark p
  let any' (p : Nat) : Bool := [cBlind, cParked].contains (b.cond p)
  match b.findBase n plain with
  | some p => some p
  | none => b.findBase n any'

/-- Every mapped phase that is not in SAFE switches (Table 5-1). -/
def Block.allOn (b : Block) (n : Nat) : Block := b.each (b.mapped n) Block.switchOn

/-- Every mapped phase that is not in SAFE parks. -/
def Block.allPark (b : Block) (n : Nat) : Block := b.each (b.mapped n) Block.park

/-- Only the phase at B[n] switches (DOZE, NAP, SOFTSTART, PRIMED). -/
def Block.onlyBase (b : Block) (n : Nat) : Block :=
  let keep := b.basePhase n
  let b := b.each (b.mapped n) (fun b p => if some p = keep then b else b.park p)
  match keep with
  | some p => b.switchOn p
  | none => b

/-- The sequence marks of a region at rest. -/
def Rgn.quiet (r : Rgn) : Rgn :=
  { r with wakeAt := none, exitAt := none, descent := 0, depth := 0, forced := false, exitTo := 0, keptWake := false,
           capDark := false, abandon := false, ssAt := none, waits := 0,
           seven := false, budget := false, stage := 0, resetDusk := false, toPrimed := false, downAt := none,
           uvAt := none, raiseAt := none, slewAcc := 0 }

/-- A leg probe that meets a droop, a slew or a raise is given up, and falls due again (R113). -/
def Block.deferProbe (b : Block) (n : Nat) : Block :=
  b.modR n (fun r => if r.probe.isSome then { r with probe := none, probeFrame := none } else r)

/-- The region's episode ends: its lowest window code is recorded, and it is kept for the snapshot (R17, R121). DROOP_ASSERT
falls once its 100 ns minimum has passed (R38); a loss of the active phase loop holds it (R333). -/
def Block.closeEpisode (b : Block) (n : Nat) : Block :=
  if !(b.R n).episode then b
  else
    let b := b.put REG_DROOPCNT_MIN_WIN (b.R n).epMin n
    b.modR n (fun r => { r with
      episode := false, epEnd := some b.now, epLog := r.epLog ++ [(r.epStart, b.now, r.epMin)], crossed := 0, crossAt := []
      rounds := 0, droopAssert := b.clk.assertAll || decide (b.now < max r.epStart b.clk.resumedAt + 100) })

/-- The droop path is disarmed: an episode in progress ends (R14). -/
def Block.disarm (b : Block) (n : Nat) : Block := (b.closeEpisode n).modR n (fun r => { r with rotDue := false })

/-- A closing of a header segment that waits for its period is dropped (R153). -/
def Block.dropClosings (b : Block) (n : Nat) : Block :=
  b.modW (weaveOf n) (fun x => { x with closeQ := x.closeQ.filter (fun e => e.1 != n) })

/-- What ends with every move of a region to DARK or DARK-FAULTED: swap-ins, the outputs and with them the set-point, an episode, the
header segments and the sequence marks. -/
def Block.shutRegion (b : Block) (n st : Nat) : Block :=
  let b := (b.abortSwaps n).dropClosings n
  let b := (b.setSt n st).put REG_PSTATE_STAGE 0 n
  let b := ((b.zeroOut n).dropSetPoint n).disarm n
  b.modR n (fun r => { r.quiet with hdrEn := 0, integ := 0, ePrev := 0, loss := 0 })

/-- The region is at rest in DARK: headers open, phases parked, no set-point (Table 5-1). DESIGN CHOICE, log 17. -/
def Block.toDark (b : Block) (n : Nat) : Block := (b.allPark n).shutRegion n sDark

/-- A class S or region fault takes the region to DARK-FAULTED with a cause: phases SAFE, headers open together,
outputs at 0, swap-ins aborted (R152, R380). DESIGN CHOICE, log 17. -/
def Block.toFaulted (b : Block) (n cause : Nat) (force : Bool) : Block :=
  let b := if force then b.each (b.mapped n) Block.enterSafe else b.allPark n
  (b.put REG_PSTATE_CAUSE cause n).shutRegion n sFaulted

/-- Mesh soft start begins: the phase at B[n] alone, from the mesh's present voltage (R150). -/
def Block.startSoft (b : Block) (n : Nat) : Block :=
  let b := ((b.setSt n sSoftstart).put REG_PSTATE_STAGE 0 n).put REG_VSET_APPLIED (b.fld REG_VSENSE_VOUT n) n
  let b := b.onlyBase n
  b.modR n (fun r => { r with ssAt := none, slewAcc := 0, hdrEn := 0 })

/-- The weave's feed current in units of 1/131072 A: the period-average currents of its phases in the last period
(R154). -/
def Block.feed (b : Block) (w : Nat) : Int :=
  (((phasesOf w).filter b.inService).map (fun p => (b.P p).hist.headD 0)).foldl (· + ·) 0

/-- The feed rating of a weave in A (R167). -/
def Block.feedRating (b : Block) (w : Nat) : Nat :=
  let v := b.efld WV_DAWN_FEED_A w
  if v = 0 then (if b.isV then 160 else 80) else v

/-- Header segment `s` of a region closes, or waits where a segment of the weave has closed in the same switching period
(R153). -/
def Block.closeSegment (b : Block) (n s : Nat) : Block :=
  let w := weaveOf n
  if (b.W w).closed then b.modW w (fun x => { x with closeQ := x.closeQ ++ [(n, s)] })
  else (b.modW w (fun x => { x with closed := true })).modR n (fun r => { r with hdrEn := r.hdrEn ||| (1#16 <<< s) })

/-- A new switching period of a weave: a closing that waits takes place, one in each period (R153). -/
def Block.nextClosing (b : Block) (w : Nat) : Block :=
  let b := b.modW w (fun x => { x with closed := false })
  match (b.W w).closeQ with
  | [] => b
  | (n, s) :: q =>
    let b := b.modW w (fun x => { x with closeQ := q })
    if b.st n = sDawn && !(b.R n).resetDusk && !b.extest then b.closeSegment n s else b

/-- A Dawn stage compares the feed and closes its segment, or inserts a wait period (R154). DEDUCED, log 19. -/
def Block.dawnCompare (b : Block) (n : Nat) : Block :=
  let r := b.R n
  let high := b.feed (weaveOf n) * 100 > ((85 * b.feedRating (weaveOf n) * 131072 : Nat) : Int)
  if r.waits < 7 && (r.seven || high) then
    (b.incrSat REG_PSTATE_STRETCH n).modR n (fun r => { r with waits := r.waits + 1, seven := r.seven || r.waits + 1 = 7 })
  else if b.extest then b
  else (b.closeSegment n r.stage).modR n (fun r => { r with waits := 7 + 1 })

/-- Dawn begins, or is entered at a stage: every mapped phase switches within the inrush budget (R153). -/
def Block.startDawn (b : Block) (n stage : Nat) : Block :=
  let b := ((b.setSt n sDawn).put REG_PSTATE_STAGE stage n).put REG_PSTATE_STRETCH 0 n
  let b := b.allOn n
  let b := b.modR n (fun r => { r with stage := stage, waits := 0, seven := false, budget := true, keptWake := false,
                                       toPrimed := false, resetDusk := false })
  b.dawnCompare n

/-- Dusk begins at its first stage, opening segment 15 (R156). -/
def Block.startDusk (b : Block) (n : Nat) : Block :=
  let b := ((b.setSt n sDusk).put REG_PSTATE_STAGE 15 n).allOn n
  b.modR n (fun r => { r with stage := 15, hdrEn := r.hdrEn &&& 0x7FFF, descent := 0, abandon := false,
                              budget := false, exitTo := 0, exitAt := none }) |>.dropClosings n

/-- The highest closed header segment. -/
def topSegment (h : BitVec 16) : Option Nat := (List.range 16).reverse.find? (fun i => h.getLsbD i)

/-- A shed is held: a droop episode is in progress, or ended less than 2 µs ago (R17). -/
def Block.shedHeld (b : Block) (n : Nat) : Bool :=
  let r := b.R n
  r.episode || (match r.epEnd with | some t => decide (b.now < t + 2000) | none => false)

/-- The phases other than the one at B[n] switch no more. -/
def Block.baseOnly (b : Block) (n : Nat) : Bool :=
  (b.mapped n).all (fun p => some p = b.basePhase n || !(b.cond p = cSwitching || b.cond p = cBlind))

/-- A descent ends in DOZE or NAP: APPLIED is at the depth's value and the shed applied (Table 5-3, stage L4). -/
def Block.finishDescent (b : Block) (n : Nat) : Block :=
  if b.st n = sLeaving && (b.R n).descent = 4 && !(b.R n).abandon && b.goal n = some (b.fld REG_VSET_APPLIED n, b.slew (weaveOf n)) &&
     b.baseOnly n then
    let st := if (b.R n).depth = 2 then sNap else sDoze
    (((b.setSt n st).onlyBase n).put REG_STATUS_SHED_HELD 0 n).modR n (fun r => { r with descent := 0, depth := 0, forced := false })
  else b

/-- The shed of stage L4: every mapped phase but the one at B[n] parks as its next switching period starts, unless R17 holds it
(R16, Table 5-3). -/
def Block.shedRest (b : Block) (n : Nat) : Block :=
  if b.baseOnly n then b.put REG_STATUS_SHED_HELD 0 n
  else if b.shedHeld n then b.put REG_STATUS_SHED_HELD 1 n
  else
    let keep := b.basePhase n
    let b := match keep with | some p => b.switchOn p | none => b
    (b.each ((b.mapped n).filter (fun p => some p != keep)) (fun b p => b.shedLater p true)).put REG_STATUS_SHED_HELD 0 n

/-- Stage L4 begins: toward DOZE or NAP the set-point moves and phases are shed; toward DARK, Dusk begins (Table 5-3). -/
def Block.enterL4 (b : Block) (n : Nat) : Block :=
  if (b.R n).depth = 3 then b.startDusk n
  else ((b.modR n (fun r => { r with descent := 4 })).shedRest n).finishDescent n

/-- The closed segments open in reverse stage order from where they stand (R158, R159, R314). -/
def Block.unwind (b : Block) (n : Nat) : Block :=
  match topSegment (b.R n).hdrEn with
  | none => b
  | some i => ((b.put REG_PSTATE_STAGE i n).dropClosings n).modR n (fun r =>
      { r with stage := i, hdrEn := r.hdrEn &&& ~~~(1#16 <<< i), resetDusk := true, budget := false })

/-- The exit latency of a state in ns, with Yalga's clocks running or stopped (Table 5-2, R139). -/
def Block.exitLatency (b : Block) (n st : Nat) (stopped : Bool) : Nat :=
  let base := if stopped then 3000 else 0
  if st = sDoze then base + 400
  else if st = sNap then base + 4000
  else if st = sPrimed then base + 21000
  else if st = sDark || st = sDusk then base + 40000 + (b.runTarget0 n - 1600) * 10
  else 0

/-- The latency code and figure of a depth (0 RUN, 1 DOZE, 2 NAP, 3 DARK). -/
def Block.depthLatency (b : Block) (n depth : Nat) (stopped : Bool) : Nat :=
  b.exitLatency n ([sRun, sDoze, sNap, sDark].getD depth sRun) stopped

/-- The deepest depth whose exit latency is within a limit of `wake` units of 100 ns (R140). -/
def Block.deepest (b : Block) (n wake : Nat) (stopped : Bool) : Nat :=
  if b.depthLatency n 3 stopped ≤ wake * 100 then 3
  else if b.depthLatency n 2 stopped ≤ wake * 100 then 2
  else if b.depthLatency n 1 stopped ≤ wake * 100 then 1 else 0

/-- Wake events, sleep requests and F_REQ are ignored for a region: during the sequence of a chip reset (R158), from a
thermal stop until it is cleared and ended (R315), while TRIP is set (R316), and in DARK-FAULTED (R157). -/
def Block.wakeIgnored (b : Block) (n : Nat) : Bool :=
  b.inReset || b.bit THM_STATUS_STOP || b.thm.stopStep != 0 || b.bit THM_STATUS_TRIP || b.st n = sFaulted ||
  b.extest || b.flt.insts.any (fun e => e.1 < 3) || (b.bit IMG_STATUS_SAFE && b.bit IMG_CTL_HOLD_DARK)

/-- The time of a wake event and the latency that its exit is allowed; of a wake that is kept already, those of the first (R140,
R159). -/
def Block.noteWake (b : Block) (n lat : Nat) : Block :=
  b.modR n (fun r => if r.keptWake && r.wakeAt.isSome then r else { r with wakeAt := some b.now, wakeLat := lat })

/-- The exit of a region from its sleep state begins (R138, R159). -/
def Block.startExit (b : Block) (n : Nat) : Block :=
  let st := b.st n
  let lat := b.exitLatency n st b.clk.stoppedCol
  let mark (b : Block) := (b.noteWake n lat).modR n (fun r => { r with exitAt := none })
  if st = sDoze || st = sNap then (mark ((b.setSt n sWaking).allOn n))
  else if st = sDark then
    if b.clk.forcing then (b.noteWake n lat).modR n (fun r => { r with keptWake := true })
    else (mark b).startSoft n |>.modR n (fun r => { r with keptWake := true })
  else if st = sPrimed then
    if b.restarting then (mark b).modR n (fun r => { r with keptWake := true })
    else (mark b).startDawn n 0
  else b

/-- The region is at rest in DARK, and starts again at once for a wake that was kept, whose time stands (R140, R159, R420). -/
def Block.darkAgain (b : Block) (n : Nat) : Block :=
  let r := b.R n
  let b := b.toDark n
  if r.keptWake && !b.wakeIgnored n then
    (b.startExit n).modR n (fun x => if r.wakeAt.isSome then { x with wakeAt := r.wakeAt, wakeLat := r.wakeLat } else x)
  else b

/-- The end of a reversal: the phases park, and the region is DARK, or PRIMED after a block warm reset (R158, R159). One
released from HOLD_DARK meanwhile starts again (R420). -/
def Block.unwound (b : Block) (n : Nat) : Block :=
  if (b.R n).toPrimed then
    let b := (((b.setSt n sPrimed).put REG_PSTATE_STAGE 0 n).onlyBase n).disarm n
    b.modR n (fun r => { r with resetDusk := false, toPrimed := false, hdrEn := 0 })
  else b.darkAgain n

/-- A wake event takes effect on a region (R138, R146, R159). A descent or Dusk for want of capacity goes on: its region ends
DARK-FAULTED, whatever wakes it, where R146 and R149 can be read both ways (DESIGN CHOICE, log 75). DEDUCED, log 33. -/
def Block.wake (b : Block) (n : Nat) : Block :=
  if b.wakeIgnored n then b
  else
    let st := b.st n
    let keep (b : Block) (from' : Nat) : Block :=
      (b.noteWake n (b.exitLatency n from' b.clk.stoppedCol)).modR n (fun r => { r with keptWake := true })
    let b := b.modR n (fun r => { r with exitTo := 0 })
    if st = sLeaving then b.modR n (fun r => { r with abandon := !r.capDark })
    else if st = sSoftstart then keep b sDark
    else if st = sDawn && (b.R n).toPrimed then keep b sPrimed
    else if st = sDusk then
      if b.restarting then keep b sDark
      else if (b.R n).capDark || (b.R n).resetDusk || b.bit IMG_CTL_HOLD_DARK && b.bit IMG_STATUS_SAFE then b
      else
        let stage := (b.R n).stage
        (b.modR n (fun r => { r with wakeAt := some b.now, wakeLat := b.exitLatency n sDark b.clk.stoppedCol })).startDawn n stage
    else b.startExit n

/-- The region is ready and enters RUN, with its integrator at 0, or the deepest state its exit stops at (R105, R139, R140, R155).
DEDUCED, log 33. -/
def Block.becomeReady (b : Block) (n : Nat) : Block :=
  let r := b.R n
  let late := match r.wakeAt with
    | some t => b.now > t + r.wakeLat
    | none => false
  let b := b.when late (fun b => b.put REG_PSTATE_LATE 1 n)
  let b := (b.put REG_PSTATE_STAGE 0 n).modR n (fun r =>
    { r with wakeAt := none, exitAt := if r.exitTo = 0 then none else r.exitAt, exitTo := 0, budget := false
             integ := if r.exitTo = 1 || r.exitTo = 2 then r.integ else 0, keptWake := false, clearSince := b.now })
  if r.exitTo = 1 then (b.setSt n sDoze).onlyBase n
  else if r.exitTo = 2 then (b.setSt n sNap).onlyBase n
  else b.setSt n sRun

/-- Every region outside every group that is DARK starts as at start-up (R160). -/
def Block.startLoose (b : Block) : Block :=
  b.each regions (fun b n => if b.st n = sDark && (b.groupOf n).isNone && !b.wakeIgnored n then b.startExit n else b)

/-- The stop sequence ends when every region is DARK or DARK-FAULTED (R313); wake events are then honoured again if
STOP has been cleared (R315). -/
def Block.stopCheck (b : Block) : Block :=
  if b.thm.stopStep ≥ 3 && regions.all (fun n => b.st n = sDark || b.st n = sFaulted) then
    let b := { b with thm := { b.thm with stopStep := 0 }, quiesceReq := false, quiesceAck := false }
    if b.bit THM_STATUS_STOP then b else b.startLoose
  else b

end Sys2Proof.Machine
end

