-- ==== Sys2Proof/Machine/Ring.lean ====
section
/-! DEFINITION. The ring member's shared operations: turns, the transmit buffer and its rate limits, the share in force,
and the bypass (R448 to R456, R460). -/

namespace Sys2Proof.Machine

/-- The tick in flight is dropped: its outputs, messages, events and pending persistent rows are never committed
(R188). -/
def Eng.dropTick (e : Eng) : Eng :=
  { e with run := .none, smPend := [], outBuf := e.outCom, wrote := [], sends := [], events := [], twaitAt := none,
           ueMark := false, mismatch := false }

/-- An event that restarts a stopped engine clock (R20). -/
def Block.restartEvent (b : Block) : Block :=
  if b.eng.clockStopped then { b with eng := { b.eng with restartReq := true } } else b

/-- The engine cycle of a time after the previous boundary, at 1.2 GHz, up to the cycle at which the engine clock stopped (R19,
R481). -/
def Eng.cycleOf (e : Eng) (t : Nat) : Nat :=
  let c := (t - e.boundAt) * 6 / 5
  match e.stopCycle with
  | some k => min c k
  | none => c

/-- The engine cycle of the present time after the last boundary; no cycle runs while the engine clock stands, or the
engine is held in reset (R19, R20, R336, R481). -/
def Block.cycleNow (b : Block) : Nat :=
  if b.eng.clockStopped || [eInit, eRunning, eHalted].contains (b.fld ENG_STATUS_STATE) then b.eng.cycleOf b.now else 0

/-- The block with its ring member changed. -/
def Block.modHoop (b : Block) (f : Hoop → Hoop) : Block := { b with hoop := f b.hoop }

/-- A ring turn in ns (R448). DEDUCED, log 50. -/
def Block.turn (b : Block) : Nat := b.fld HOOP_CFG_N * 550

/-- The member's own ID. -/
def Block.me (b : Block) : Nat := b.fld HOOP_CFG_MEMBER_ID

/-- The member is the configured allocator or the backup (R459). -/
def Block.mayAllocate (b : Block) : Bool :=
  b.me = b.fld HOOP_CFG_ALLOC_ID || b.bit HOOP_CFG_BACKUP_VALID && b.me = b.fld HOOP_CFG_BACKUP_ID

/-- What is known of member `i`. -/
def Block.peer (b : Block) (i : Nat) : Peer := b.hoop.peers.get (fun _ => {}) i

/-- The block with what is known of member `i` changed. -/
def Block.modPeer (b : Block) (i : Nat) (f : Peer → Peer) : Block :=
  b.modHoop (fun h => { h with peers := h.peers.set (fun _ => {}) i (f (b.peer i)) })

/-! Message types (Table 15-3). -/
def mCap : Nat := 1
def mBudget : Nat := 2
def mPace : Nat := 3
def mTickSync : Nat := 4
def mFault : Nat := 5
def mProg : Nat := 6

/-- A 16-bit field of a payload at frame byte `i`, little-endian (R450). -/
def payload16 (f : Frame) (i : Nat) : Nat :=
  (f.payload.getD (i - 4) 0).toNat + 256 * (f.payload.getD (i - 3) 0).toNat

/-- The two bytes of a 16-bit field. -/
def bytes16 (v : Nat) : List Byte := [BitVec.ofNat 8 v, BitVec.ofNat 8 (v / 256)]

/-- A payload of 12 bytes, unused bytes 0 (Table 15-1). -/
def payloadOf (bs : List Byte) : List Byte := (bs ++ List.replicate 12 0).take 12

/-- The bytes 0..15 of a ring frame (Table 15-2). -/
def frameBytes (f : Frame) : List Byte :=
  [BitVec.ofNat 8 f.ty, BitVec.ofNat 8 f.src, BitVec.ofNat 8 f.seq, BitVec.ofNat 8 f.arg] ++ payloadOf f.payload

/-- K28.5, D16.2, K27.7 and K29.7 (Table 15-1). -/
def symIdle : List Symbol := [.k 0xBC, .d 0x50]
def symStart : Symbol := .k 0xFB
def symEnd : Symbol := .k 0xFD

/-- A frame's slot on the lanes: start, its bytes and their CRC-32, end, and the idle that follows; 24 symbols (R450, Table 15-1). -/
def slot (f : Frame) : List Symbol :=
  let bs := frameBytes f
  symStart :: (bs ++ leBytes 4 (crc32 bs).toNat).map Symbol.d ++ symEnd :: symIdle

/-- The byte of a data symbol. -/
def symData : Symbol → Option Byte
  | .d x => some x
  | _ => none

/-- The 20 bytes between the start and the end of 22 symbols; none with a code error or a misplaced control symbol (R450). -/
def frameBody (syms : List Symbol) : Option (List Byte) :=
  let mid := (syms.drop 1).take 20
  if syms.length = 22 && syms.head? = some symStart && syms.getLast? = some symEnd && mid.all (fun x => (symData x).isSome) then
    some (mid.filterMap symData)
  else none

/-- The CRC-32 of a frame's bytes is right (R411, R450). -/
def crcOk (body : List Byte) : Bool := body.drop 16 = leBytes 4 (crc32 (body.take 16)).toNat

/-- First transmissions of a type within the last `n` turns. -/
def Block.sentWithin (b : Block) (ty n : Nat) : Nat :=
  (b.hoop.sentLog.filter (fun e => e.1 = ty && b.now < e.2 + n * b.turn)).length

/-- A CAP sent for a change of LIMIT, whose rate is limited apart from that of the others (Table 15-3). -/
def mCapNow : Nat := 0x101

/-- What a frame counts as under the rate limits. -/
def TxFrame.rateKind (x : TxFrame) : Nat := if x.frame.ty = mCap && x.urgent then mCapNow else x.frame.ty

/-- A frame may start its first transmission under the rate limit of its type (Table 15-3, R456); no PROG starts during a block
warm reset (R467). -/
def Block.mayStart (b : Block) (x : TxFrame) : Bool :=
  let ty := x.rateKind
  if ty = mProg && b.restarting then false
  else if ty = mCap then b.sentWithin ty 4 = 0
  else if ty = mCapNow then b.sentWithin ty 1 = 0
  else if ty = mBudget then b.sentWithin ty 1 < (b.fld HOOP_CFG_N + 5) / 6
  else if ty = mPace || ty = mFault then b.sentWithin ty 4 = 0
  else if ty = mTickSync then b.sentWithin ty 1 = 0
  else b.sentWithin ty 2 = 0

/-- A waiting frame as it starts: with the next SEQ, and in a TICK_SYNC frame TICKNO and the engine cycle of the start (R450,
Table 15-3). -/
def Block.started (b : Block) (f : Frame) : Frame :=
  { f with seq := b.hoop.seq
           payload := if f.ty = mTickSync then payloadOf (leBytes 8 b.tickno ++ bytes16 b.cycleNow) else f.payload }

/-- A waiting frame of the buffer starts its first transmission if its limit allows (R450). -/
def Block.startTx (b : Block) (i : Nat) : Block :=
  match b.hoop.tx[i]? with
  | none => b
  | some x =>
    if x.started || !b.mayStart x then b
    else
      let y := { x with started := true, sentAt := b.now, frame := b.started x.frame }
      let b := if x.frame.ty = mPace then b.put HOOP_RATE_SENT (payload16 x.frame 4) else b
      b.modHoop (fun h => { h with
        tx := h.tx.set i y
        wire := slot y.frame
        capLast := if x.frame.ty = mCap then some y.frame.payload else h.capLast
        seq := (h.seq + 1) % 256
        sentLog := ((x.rateKind, b.now) :: h.sentLog).take 64
        paceAt := if x.frame.ty = mPace then some b.now else h.paceAt })

/-- Every waiting frame whose limit allows starts, oldest first (R455). -/
def Block.startTxAll (b : Block) : Block := b.each (List.range 16) Block.startTx

/-- An own frame is put into the transmit buffer, while the member is in the ring and the buffer has room; it starts at
once or waits for its rate limit (R452, R455). -/
def Block.sendFrame (b : Block) (ty arg : Nat) (payload : List Byte) (urgent : Bool := false) : Block :=
  if !b.hoop.bypOpen || b.hoop.tx.length ≥ 16 then b
  else
    let f : Frame := { ty := ty, src := b.me, seq := 0, arg := arg, payload := payloadOf payload }
    let x : TxFrame := { frame := f, urgent := urgent }
    (b.modHoop (fun h => { h with tx := h.tx ++ [x] })).startTxAll

/-- The share in force at the present time, W (R460); 0 without a ring configuration. -/
def Block.shareRat (b : Block) : Rat :=
  if !b.hoop.cfgOk then 0
  else
    let fl : Nat := b.hoop.floors.get (fun _ => 0) b.me
    match b.hoop.budget with
    | none => fl
    | some (l, at') =>
      let t := b.now - at'
      let turn := b.turn
      if t ≤ 4 * turn then l
      else if t ≤ 12 * turn then (l : Rat) - ((l : Rat) - fl) * ((t : Rat) - 4 * turn) / (8 * turn)
      else fl

/-- The share in force in whole watts. DESIGN CHOICE, log 9. -/
def Block.shareW (b : Block) : Nat := (rounded 20 b.shareRat).toNat

/-- CAPPED of the member's CAP frames (R456). -/
def Block.capped (b : Block) : Bool :=
  let limit := b.fld PWR_CAP_SLOW_LIMIT
  b.bit PWR_STATUS_CAP_ACTIVE && b.hoop.cfgOk && (decide (b.shareRat < (limit : Rat)) || limit = 0)

/-- The payload of a CAP frame: the present average and limit, and during a block warm reset those of the last one sent (R456,
R467). -/
def Block.capPayload (b : Block) : List Byte :=
  let present := bytes16 (roundDiv (b.fld PWR_CHIP_AVG_FAST) 16).toNat ++ bytes16 (b.fld PWR_CAP_SLOW_LIMIT) ++ [if b.capped then 1 else 0]
  if b.restarting then b.hoop.capLast.getD present else present

/-- A CAP frame (R456). -/
def Block.sendCap (b : Block) (urgent : Bool) : Block := b.sendFrame mCap 0 b.capPayload urgent

/-- A FAULT notice: source, class and instance (R464). -/
def Block.sendFaultFrame (b : Block) (cls src index : Nat) : Block :=
  b.sendFrame mFault 0 ([BitVec.ofNat 8 src, BitVec.ofNat 8 cls] ++ bytes16 index)

/-- The conditions of R454 but for the time since the pin last fell. -/
def Block.mayJoin (b : Block) : Bool :=
  b.img.accepted && !b.bit IMG_STATUS_SAFE && b.hoop.cfgOk && b.bit CLK_STATUS_LANE_RDY && b.fld CLK_STATUS_REF != 2 &&
  !b.bit HOOP_CTL_LEAVE && !b.bit HOOP_STATUS_DUP_ID && !b.inReset && b.vinGood

/-- HOOP_BYP_N falls when a condition fails, and the idles that go out before it rises begin anew (R454). -/
def Block.bypassCheck (b : Block) : Block :=
  if b.mayJoin then b
  else if b.hoop.bypOpen then b.modHoop (fun h => { h with bypOpen := false, fellAt := some b.now, idleAt := none })
  else if b.hoop.idleAt.isSome then b.modHoop (fun h => { h with idleAt := none })
  else b

end Sys2Proof.Machine
end

