-- ==== Sys2Proof/Machine/Restart.lean ====
section
/-! DEFINITION. Step 1 of a block warm reset (Table 13-7), and the start of an image load, which the fault collector and
the resets set off. -/

namespace Sys2Proof.Machine

/-- The service domain, with the hint block and the reducer, is held in reset: until FIO is ready at start-up, during a
chip reset, and for the first 3 µs of a block warm reset (Tables 13-7, 14-7, R229, R282). -/
def Block.serviceHeld (b : Block) : Bool :=
  !b.aonUp || b.inReset || b.img.waitFio || (b.flt.step = 1 && b.now < b.flt.startedAt + 3000)

/-- The service domain runs: out of reset and with a clock (R337). -/
def Block.serviceUp (b : Block) : Bool := !b.serviceHeld && !b.clk.svcStopped

/-- Fields of IMG_STATUS that a load clears: all but the W1C bits and the build parameter (R436). -/
def Block.clearImgStatus (b : Block) : Block :=
  [IMG_STATUS_ERR, IMG_STATUS_SECTION, IMG_STATUS_DIGEST_READY, IMG_STATUS_DIGEST_OK, IMG_STATUS_PRIMARY,
   IMG_STATUS_SAFE, IMG_STATUS_LOADING, IMG_STATUS_LOAD_MS].foldl (fun b f => b.put f 0) b

/-- A load starts: XSPI_RESET_N is low for `low` ns, and LOADING is set (Table 14-7, R423, R436). -/
def Block.startLoad (b : Block) (low : Nat) (flashRdy memTested : Bool) : Block :=
  let b := b.clearImgStatus.put IMG_STATUS_LOADING 1
  { b with img := { b.img with stage := 1, rose := b.now + low, flashRdy := flashRdy, memTested := memTested,
                               waitFio := false, staged := {}, digestOk := false, allPassed := false,
                               trustDue := false } }

/-- The block with its converter subsystem changed. -/
def Block.modAdc (b : Block) (f : Adc → Adc) : Block := { b with adc := f b.adc }

/-- The reference selection of a group of converters: 0 REGION, 1 PHASE, 2 VINQ, 3 AUX (Table 12-6). -/
def refSel (g : Nat) : Fld := ⟨ADC_REF_SEL_REGION.base, 2 * g + 1, 2 * g⟩

/-- The flash-write window closes: flash operations are barred until it has held for 10 ms again, and calibration results that are
not written yet wait (R317, R365). DEDUCED, log 36. -/
def Block.shutWindow (b : Block) : Block :=
  if !b.bit THM_STATUS_FLASH_OK then b
  else
    let b := (b.put THM_STATUS_FLASH_OK 0).modAdc (fun a => { a with journalWait := a.journalWait || a.journalDue })
    { b with thm := { b.thm with flashShut := true } }

/-- A group's REF_SETTLED bit; without it the results of AUX0..AUX3 are old until each has one against the settled reference, and
the flash-write window is closed (R354). -/
def Block.setSettled (b : Block) (g : Nat) (v : Bool) : Block :=
  let w := BitVec.ofNat 4 (b.fld ADC_STATUS_REF_SETTLED)
  let b := if g = 2 && !v then (b.modAdc (fun a => { a with vinFresh := 0 })).shutWindow else b
  b.put ADC_STATUS_REF_SETTLED (if v then w ||| (1#4 <<< g) else w &&& ~~~(1#4 <<< g)).toNat

/-- The groups' references are switched to the bandgap for a calibration point, or restored after it (R354, R364). -/
def Block.calRefs (b : Block) : Block :=
  b.each (List.range 4) (fun b g => if b.fld (refSel g) != 0 then b.setSettled g false else b)

/-- The journal commit, the staging, the calibration point and the PMBus transfer that a reset stops (Table 14-9). -/
def Block.stopOperations (b : Block) : Block :=
  let b := if b.bit ADC_CAL_CTL_CAL_BUSY then b.calRefs else b
  let b := ((b.put IMG_JRNL_BUSY 0).put ADC_CAL_CTL_CAL_BUSY 0).put PMB_STATUS_BUSY 0
  let frozen := match b.img.commit with | some c => c.kinds | none => 0
  { b with
    img := { b.img with commit := none, rc := [], rcCount := none, rcHold := false, rcDue := false, startDue := false,
                        tries := [], xfer := none, pend := (b.img.pend ||| frozen) &&& 3 }
    adc := { b.adc with zeroOk := false, journalDue := false, journalWait := false } }

/-- The registers of R513 return to their Reset column values, and the hint state with them (R229). -/
def Block.restartRegs (b : Block) : Block :=
  let whole := [ENG_STATUS_STATE, ENG_CTL_HALT, ENG_TICKNO_LO_VAL, ENG_TICKNO_HI_VAL, ENG_ARRAY_AS0, ENG_MADDR_MEM,
                ENG_PRED_DISABLED, ENG_HINTSTAT_UNMATCHED, TRC_SIG_SIG].map (·.base)
    ++ (List.range 4).map (ENG_MDATA_DATA.base + 4 * ·)
  let b := whole.foldl (fun b a => b.setReg a (resetWord a)) b
  let b := [ENG_CYCLES_STATIC, ENG_CYCLES_LAST, ENG_STALL_LAST, TRC_STATUS_RECORDING, TRC_STATUS_ARMED, TRC_STATUS_FULL,
            TRC_STATUS_REFUSED, TRC_STATUS_TRIGGERED, TRC_STATUS_REPLAYABLE, TRC_STATUS_FILL, TRC_CTL_MODE,
            TRC_CTL_EXPORT, TRC_CTL_STOP, TRC_REPLAY_BUSY].foldl (fun b f => b.put f 0) b
  { b with hint := [], hintQ := [], tickHi := 0 }

/-- An entry of the wear log, which makes its journal kind pending (R397, R426). -/
def Block.logWear (b : Block) (kind elem : Nat) (serves : Option Nat) (val : Nat := 0) : Block :=
  { b with img := { b.img with wear := b.img.wear ++ [{ kind := kind, elem := elem, serves := serves, val := val }],
                               pend := b.img.pend ||| 1 } }

/-- The physical element of a memory word in the wear log. -/
def wordElem (m w : Nat) : Nat := m * 1048576 + w

/-- The remaps of a word among the entries of a wear log, and among the words redirected. -/
def remapsLogged (wear : List WearRec) (x : MemWord) : Nat :=
  (wear.filter (fun e => e.kind = 4 && e.elem = wordElem x.mem x.word)).length
def Eng.remapsOf (e : Eng) (x : MemWord) : Nat := (e.remapped.filter (· = x)).length

/-- A word is redirected to the spare row it holds (R394), which the wear log records, unless it is a remap that the log kept from
before the last reset (R397). -/
def Block.redirect (b : Block) (m w : Nat) : Block :=
  let x : MemWord := { mem := m, word := w }
  let b := { b with eng := { b.eng with
    remapDue := b.eng.remapDue.filter (fun y => y != x)
    copied := b.eng.copied.filter (fun y => y != x)
    remapped := b.eng.remapped ++ [x] } }
  if remapsLogged b.img.wear x < b.eng.remapsOf x then b.logWear 4 (wordElem m w) (some (wordElem m w)) else b

/-- The words copied to spare rows are redirected: at a boundary, or at once as the engine stops (R394). -/
def Block.redirectCopied (b : Block) : Block := b.eng.copied.foldl (fun b x => b.redirect x.mem x.word) b

/-- The engine's state at rest: its memories, the words redirected, the outputs last committed and the count of boundaries stay. -/
def Eng.stop (e : Eng) : Eng :=
  { noWord := e.noWord, bounds := e.bounds, pm := e.pm, sm := e.sm, cm := e.cm, tm := e.tm, wm := e.wm, remapped := e.remapped, corrAt := e.corrAt,
    outCom := e.outCom, outBuf := e.outCom, sendQ := e.sendQ, initEntry := e.initEntry, tickEntry := e.tickEntry }

/-- What a block warm reset does to a region's sequence (Table 5-6). Only a wake event that comes while it runs is kept
(R159). A Dawn that a thermal stop already reverses ends in DARK (R315). -/
def Block.restartRegion (b : Block) (n : Nat) : Block :=
  let st := b.st n
  if st = sLeaving then b.modR n (fun r => { r with abandon := true, capDark := false })
  else if st = sSoftstart || st = sPrimed then b.modR n (fun r => { r with keptWake := false, wakeAt := none })
  else if st = sDawn && !(b.R n).resetDusk then
    let b := b.modR n (fun r => { r with toPrimed := true, keptWake := false, wakeAt := none })
    if (topSegment (b.R n).hdrEn).isSome then b.unwind n else b.unwound n
  else b

/-- A recording ends without an END record, and a replay with it (R490). -/
def Trc.stop (t : Trc) : Trc := { mem := t.mem, base := t.base, sent := t.sent, setLo := t.setLo, spoiled := t.spoiled }

/-- Step 1 of Table 13-7: the engine clock stops, the tick in flight is aborted, and the engine and service domains are
held in reset (R398). DEDUCED, log 53. -/
def Block.beginRestart (b : Block) : Block :=
  let b := b.redirectCopied.restartRegs.stopOperations
  let b := { b with
    eng := b.eng.stop
    trc := b.trc.stop
    snap := {}
    clk := { b.clk with sleeping := false }
    flt := { b.flt with step := 1, startedAt := b.now }
    img := { b.img with stage := 0 } }
  b.enterMode.each regions Block.restartRegion

end Sys2Proof.Machine
end

