-- ==== Sys2Proof/Machine/HostPort.lean ====
section
/-! DEFINITION. The register port (R4 to R6, R25 to R27): what every host access does beside its own effect, and the
errors of a write that the spec calls unpredictable (R391, Table 13-4). -/

namespace Sys2Proof.Machine



/-- What enters the coming snapshot is noted for the event log, up to 255 entries; more are counted (R481). -/
def Block.note (b : Block) (e : TrcEvent) : Block :=
  if b.trc.events.length < 255 then { b with trc := { b.trc with events := b.trc.events ++ [e] } }
  else { b with trc := { b.trc with dropped := b.trc.dropped + 1 } }

/-- The bits of a register that a host write may set: reserved and read-only fields are none of them. -/
def writableBits (a : Nat) : Word :=
  match findReg a with
  | some d => d.rw ||| d.rws ||| d.w1c ||| d.wo
  | none => 0

/-- The bits of a register that are reserved: in no field (R6). -/
def reservedBits (a : Nat) : Word :=
  match findReg a with
  | some d => ~~~(d.rw ||| d.rws ||| d.w1c ||| d.wo ||| d.ro)
  | none => 0

/-- The fields that a host error leaves alone, with the length of their register arrays, since the protections of R392 rest on
them: the over-voltage masks; the condition and logical position of a phase and its zero code; the reference, its source, the
reading and the power state of a region; a sensor's mark; the stage of a swap-in; the build; the readings and marks of the VIN
inputs, the settled references and the spare converters. The words of FLT_CFG hold what the write of the free word leaves, whose
parity is right, since no host error raises a fault source (R391). DEDUCED, log 7. -/
def guardedFields : List (Fld × Nat) :=
  [(REG_STATUS_OVC_MASK, 256), (REG_STATUS_SENSE_SRC, 256), (PH_STATE_COND, 1088), (PH_STATE_LOGICAL, 1088),
   (PH_STATE_POPULATED, 1088), (PH_CAL_ZERO_CODE, 1088), (REG_VSET_APPLIED, 256), (REG_VSENSE_VOUT, 256), (REG_PSTATE_STATE, 256),
   (THM_SENSOR_STATE, 272), (WV_SWAP_STAGE, 16), (CFG_STRAP_BUILD, 1), (CFG_STRAP_SAMPLED, 1), (ADC_AUX_VALID, 16),
   (ADC_AUX_FAILED, 16), (ADC_AUX_VALUE, 16), (ADC_STATUS_REF_SETTLED, 1), (ADC_SPARE_STATE, 16), (ADC_SPARE_SERVES, 16),
   (FLT_CFG_PAR, 128), (FLT_CFG_EN, 128), (FLT_CFG_REACT, 128)]

/-- The bits of a register that a host error leaves alone (R391, R392). DEDUCED, log 7. -/
def guardedBits (a : Nat) : Word :=
  ((guardedFields.filter (fun e => decide (e.1.base ≤ a) && decide (a < e.1.base + 4 * e.2))).map (fun e => Fld.mask e.1)).foldl (· ||| ·) 0

/-- A write on the register port, whose effect is `f` of the word written. A reserved field written non-zero makes
every field of the register and what it controls unpredictable: the effect is that of a free word, and the register
holds a free word in its fields (a reserved field reads 0, R6) but for those that R392 protects. A write while a replay
runs makes the written register and the replay unpredictable (R391).
DESIGN CHOICE, log 7. -/
def Block.hostWrite (b : Block) (a : Nat) (data : Word) (f : Block → Word → Block) : Block :=
  let b := b.restartEvent.note (.hostw b.cycleNow a data)
  if (data &&& reservedBits a) = 0 && !b.bit TRC_REPLAY_BUSY then f b data
  else if (findReg a).isNone then b
  else
    let x := b.draw
    let y := x.2.draw
    let b := f y.2 (x.1 &&& writableBits a)
    let b := b.setReg a ((y.1 &&& ~~~(reservedBits a ||| guardedBits a)) ||| (b.reg a &&& guardedBits a))
    if b.bit TRC_REPLAY_BUSY then { b with trc := { b.trc with spoiled := true } } else b

end Sys2Proof.Machine
end

