-- ==== Sys2Proof/Machine/Collector.lean ====
section
/-! DEFINITION. The fault collector (chapter 13): sources and instances, reactions, class S forcing, clearing, and the
levels it drives. -/

namespace Sys2Proof.Machine

/-! The source numbers of Table 13-1. -/
def srcCOLL_PARITY : Nat := 0x00
def srcSLO_STOP : Nat := 0x01
def srcHW_TRIP : Nat := 0x02
def srcPH_ACTIVE_LOSS : Nat := 0x03
def srcOV : Nat := 0x04
def srcSHORT : Nat := 0x05
def srcUV : Nat := 0x08
def srcSENSE_CRACK : Nat := 0x09
def srcDET_DEAD : Nat := 0x0A
def srcOVC_DEAD : Nat := 0x0B
def srcCAPACITY : Nat := 0x0C
def srcSS_TIMEOUT : Nat := 0x0D
def srcWIN_FAIL : Nat := 0x0E
def srcRAISE_SLOW : Nat := 0x0F
def srcFAIL_OPEN : Nat := 0x10
def srcFAIL_SHORT : Nat := 0x11
def srcSTAGE_OT : Nat := 0x12
def srcSENSE_FAIL : Nat := 0x13
def srcCAL_FAIL : Nat := 0x14
def srcWEAR_RON : Nat := 0x15
def srcWEAR_SENSE : Nat := 0x16
def srcPOOL_EMPTY : Nat := 0x17
def srcADC_FAIL : Nat := 0x18
def srcADC_MISMATCH : Nat := 0x19
def srcADC_NO_SPARE : Nat := 0x1A
def srcAUX_FAIL : Nat := 0x1B
def srcREF_FAULT : Nat := 0x1C
def srcTHM_STOP : Nat := 0x20
def srcTHM_ACK_LATE : Nat := 0x21
def srcTHM_BROKEN : Nat := 0x22
def srcTHM_NO_SPARE : Nat := 0x23
def srcTHM_RISE : Nat := 0x24
def srcCOLLAPSE : Nat := 0x28
def srcXA_LOSS : Nat := 0x29
def srcXB_LOSS : Nat := 0x2A
def srcFIO_LOSS : Nat := 0x2B
def srcPLLE_LOSS : Nat := 0x2C
def srcPLLP_LOSS : Nat := 0x2D
def srcPLLS_LOSS : Nat := 0x2E
def srcLANE_LOSS : Nat := 0x2F
def srcENG_DEADLINE : Nat := 0x30
def srcENG_MEM_UE : Nat := 0x31
def srcENG_ARRAY_MISMATCH : Nat := 0x32
def srcENG_ARRAY_FAIL : Nat := 0x33
def srcENG_STUCK : Nat := 0x34
def srcDET_BROKEN : Nat := 0x35
def srcRING_DROP : Nat := 0x36
def srcMWR_REFUSED : Nat := 0x37
def srcENG_PROG_EVENT : Nat := 0x38
def srcMEM_UE : Nat := 0x39
def srcMEM_SPARE_LOW : Nat := 0x3A
def srcMEM_SPARE_OUT : Nat := 0x3B
def srcOVER_FAST : Nat := 0x40
def srcOVER_SLOW : Nat := 0x41
def srcCAP_FLOOR : Nat := 0x42
def srcHINT_BAD_TYPE : Nat := 0x43
def srcACT_FRAME_ERR : Nat := 0x44
def srcACT_STALE : Nat := 0x45
def srcFIDX_LATE : Nat := 0x46
def srcIMG_BANK : Nat := 0x48
def srcIMG_SAFE : Nat := 0x49
def srcIMG_UNTRUSTED : Nat := 0x4A
def srcFLASH_FAIL : Nat := 0x4B
def srcPMB_ALERT : Nat := 0x4C
def srcPMB_ERR : Nat := 0x4D
def srcHOOP_LANE : Nat := 0x50
def srcHOOP_DOWN : Nat := 0x51
def srcHOOP_HOLD : Nat := 0x52
def srcHOOP_NOTICE : Nat := 0x53
def srcTRC_LOSS : Nat := 0x54
/-- The source numbers below 0x06 are class S (Table 13-1). -/
def isClassS (src : Nat) : Bool := src < 6

/-- A defined source: one with a default reaction in Table 13-1. -/
def isSource (src : Nat) : Bool := fltDefaults.any (fun e => e.1 = src)

/-- The W1C or read-only flag of a source and whether it is per instance (Table 13-1); none where the source has no
flag bit of its own to set. -/
def flagOf (src : Nat) : Option (Fld × Bool) :=
  match [(srcSLO_STOP, CLK_MON_SLO_STOP, false), (srcHW_TRIP, THM_STATUS_TRIP, false),
    (srcPH_ACTIVE_LOSS, CLK_MON_PH_ACTIVE_LOSS, false), (srcOV, REG_STATUS_OV, true), (srcUV, REG_STATUS_UV, true),
    (srcWIN_FAIL, ADC_STATUS_WIN_FAIL, false), (srcRAISE_SLOW, REG_STATUS_RAISE_SLOW, true),
    (srcADC_FAIL, ADC_STATUS_ADC_FAIL, false), (srcADC_MISMATCH, ADC_STATUS_ADC_MISMATCH, false),
    (srcADC_NO_SPARE, ADC_STATUS_NO_SPARE, false), (srcAUX_FAIL, ADC_STATUS_AUX_FAIL, false),
    (srcREF_FAULT, ADC_STATUS_REF_FAULT, false), (srcTHM_STOP, THM_STATUS_STOP, false),
    (srcTHM_ACK_LATE, THM_STATUS_ACK_LATE, false), (srcTHM_BROKEN, THM_STATUS_BROKEN, false),
    (srcTHM_NO_SPARE, THM_STATUS_NO_SPARE, false), (srcTHM_RISE, THM_STATUS_RISE, false),
    (srcCOLLAPSE, CLK_MON_COLLAPSE, false), (srcXA_LOSS, CLK_MON_XA_LOSS, false),
    (srcXB_LOSS, CLK_MON_XB_LOSS, false), (srcFIO_LOSS, CLK_MON_FIO_LOSS, false),
    (srcPLLE_LOSS, CLK_MON_PLLE_LOSS, false), (srcPLLP_LOSS, CLK_MON_PLLP_LOSS, false),
    (srcPLLS_LOSS, CLK_MON_PLLS_LOSS, false), (srcLANE_LOSS, CLK_MON_LANE_LOSS, false),
    (srcENG_DEADLINE, ENG_DEADLINE_MISS_MISS, false), (srcENG_MEM_UE, ENG_FLAGS_ABORT_UE, false),
    (srcENG_ARRAY_MISMATCH, ENG_FLAGS_ARRAY_MISMATCH, false), (srcENG_STUCK, ENG_FLAGS_STUCK, false),
    (srcDET_BROKEN, ENG_FLAGS_DET_BROKEN, false), (srcRING_DROP, ENG_FLAGS_RING_DROP, false),
    (srcMWR_REFUSED, ENG_FLAGS_MWR_REFUSED, false), (srcOVER_FAST, PWR_STATUS_OVER_FAST, false),
    (srcOVER_SLOW, PWR_STATUS_OVER_SLOW, false), (srcCAP_FLOOR, PWR_STATUS_CAP_FLOOR, false),
    (srcHINT_BAD_TYPE, CFG_PORT_STATUS_HINT_BAD_TYPE, false), (srcACT_FRAME_ERR, CFG_PORT_STATUS_ACT_FRAME_ERR, false),
    (srcACT_STALE, CFG_PORT_STATUS_ACT_STALE, false), (srcFIDX_LATE, CFG_PORT_STATUS_FIDX_LATE, false),
    (srcIMG_BANK, IMG_STATUS_BANK, false), (srcIMG_SAFE, IMG_STATUS_SAFE, false),
    (srcIMG_UNTRUSTED, IMG_STATUS_UNTRUSTED, false), (srcFLASH_FAIL, IMG_JRNL_FAIL, false),
    (srcPMB_ALERT, PMB_STATUS_ALERT, false), (srcPMB_ERR, PMB_STATUS_ERR, false),
    (srcHOOP_LANE, HOOP_STATUS_LANE_FAIL, false), (srcHOOP_DOWN, HOOP_STATUS_DOWN, false),
    (srcHOOP_HOLD, HOOP_STATUS_HOLD, false), (srcHOOP_NOTICE, HOOP_STATUS_NOTICE, false),
    (srcTRC_LOSS, TRC_STATUS_LOSS, false)].find? (fun e => e.1 = src) with
  | some (_, f, i) => some (f, i)
  | none => none

/-- FLT_CFG[s].EN: 1 for class S (R407), else as configured. -/
def Block.srcEnabled (b : Block) (src : Nat) : Bool := isClassS src || b.bit FLT_CFG_EN src

/-- The reaction in force of a source: fixed for COLL_PARITY; a reserved code acts as Interrupt (Table 13-3). -/
def Block.reaction (b : Block) (src : Nat) : Nat :=
  if src = srcCOLL_PARITY then 4
  else
    let r := b.fld FLT_CFG_REACT src
    if r > 4 then 1 else r

/-- A source is pending while any of its instances is raised (R376). -/
def Block.pendingSrc (b : Block) (src : Nat) : Bool := b.flt.insts.any (fun e => e.1 = src)

/-- An instance is raised. -/
def Block.raisedInst (b : Block) (src index : Nat) : Bool := b.flt.insts.contains (src, index)

/-- The sources pending, each once, in number order. -/
def Block.pendingList (b : Block) : List Nat := (List.range 128).filter b.pendingSrc

/-- FAULT_N is held low: any source pending, the rebuild of Table 13-7, or the always-on power-up (R386, R60).
DEDUCED, log 56. -/
def Block.faultNLow (b : Block) : Bool :=
  b.flt.powerUp || !b.flt.insts.isEmpty || (b.flt.step = 1)

/-- A pending source's reaction acts: it does not wait for a service clock (R337). -/
def Block.reacts (b : Block) (src : Nat) : Bool := !b.flt.waiting.any (fun e => e.1 = src)

/-- IRQ_OUT and NMI_OUT: a pending source is configured for the reaction (R46, R384). DEDUCED, log 56. -/
def Block.irqOut (b : Block) : Bool := b.pendingList.any (fun s => b.reaction s = 1 && b.reacts s)
def Block.nmiOut (b : Block) : Bool := b.pendingList.any (fun s => b.reaction s = 2 && b.reacts s)

/-- A record of the fault log, overwriting the oldest of 64 (R390). -/
def Block.logFault (b : Block) (src index : Nat) : Block :=
  let r : FltRec := { src := src, index := index, timeUs := (b.now - b.aonAt) / 1000 % 2 ^ 32, tickLo := b.fld ENG_TICKNO_LO_VAL }
  { b with flt := { b.flt with log := (r :: b.flt.log).take 64 }, img := { b.img with pend := b.img.pend ||| 2 } }



/-- 60 s on SLO (R385, R514). -/
def escalateCycles : Nat := 480000000

/-- CRST_REQ_N is driven low, and the ring is told (R47, R464). -/
def Block.requestChipReset (b : Block) (src index : Nat) : Block :=
  (({ b with flt := { b.flt with chipReq := true } } : Block)).sendFaultFrame (if isClassS src then 1 else 0) src index

/-- A block warm reset may start: no chip-reset request stands (R384), none runs (R399), not in minimum safe mode (R421),
not before the first acceptance of an image (R425), and not during a chip reset. -/
def Block.mayRestart (b : Block) : Bool :=
  !b.flt.chipReq && !b.restarting && !b.bit IMG_STATUS_SAFE && b.img.accepted && !b.inReset

/-- ISSUE_LIMIT, FLOOR and F_PERMIT go to 0 in every region (R313 step 3); each region waits for its F_CUR. -/
def Block.stopCommit (b : Block) : Block :=
  if b.thm.stopStep = 3 then
    let b := b.each regions (fun b n => ((b.setThrottle n 0 0).setPermit n 0).modR n (fun r => { r with downAt := some b.now }))
    ({ b with thm := { b.thm with stopStep := 4 } } : Block).stopCheck
  else b

/-- While the engine is not running the output stage applies itself the values of a stop's step, and those that a class S event holds
at 0 (R314, R380). -/
def Block.stopApply (b : Block) : Block :=
  if b.engineRunning then b
  else
    let b := b.each regions (fun b n => if b.heldZero n then b.zeroOut n else b)
    if b.thm.stopStep = 1 then b.each regions (fun b n => b.setThrottle n (b.R n).issue 0) else b.stopCommit

/-- A block warm reset begins; what waited for the engine's commit in a thermal stop or after a class S event is applied by the output
stage (R314, R315, R380, R398). -/
def Block.warmReset (b : Block) : Block := b.beginRestart.stopApply

/-- A BRESET write: a block warm reset starts; one that is not started is logged (R384, R399, R421, R425), in a record whose source and
instance the spec does not give (DESIGN CHOICE, log 79). It is never counted or escalated (R385). -/
def Block.breset (b : Block) : Block :=
  if b.mayRestart then b.warmReset else b.logFault Config.bresetLog.1.toNat Config.bresetLog.2.toNat

/-- A Block reset reaction falls due: suppressed by a chip-reset request (R384), not started while one runs (R399) or
in minimum safe mode (R421), replaced by a chip-reset request when it would be the third within 60 s (R385). The record of its
instance, written as that was raised (R390), is the log of one that is not started. DEDUCED, log 53. -/
def Block.reactReset (b : Block) (src index : Nat) : Block :=
  if !b.mayRestart then b
  else
    let recent := b.flt.resets.filter (fun t => b.slo < t + escalateCycles)
    if recent.length ≥ 2 then (b.put FLT_STATUS_ESCALATED 1).requestChipReset src index
    else
      let b := { b with flt := { b.flt with resets := b.slo :: recent } }
      b.warmReset

/-- The reaction of a source whose pending bit has just been set (R383, R384). -/
def Block.react (b : Block) (src index : Nat) : Block :=
  let b := if isClassS src && b.reaction src != 4 then b.sendFaultFrame 1 src index else b
  if b.reaction src = 3 then b.reactReset src index
  else if b.reaction src = 4 then b.requestChipReset src index
  else b

/-- An instance is raised: logged, its source pending, and the source's reaction set off when it was not pending
(R376, R384, R390). A disabled class R source raises nothing (R377). During steps 1 and 2 of a block warm reset a
class R instance waits for the rebuild (R399); without a service clock its reaction waits (R337). DEDUCED, log 53. -/
def Block.raise (b : Block) (src index : Nat) : Block :=
  if !b.srcEnabled src || b.raisedInst src index then b
  else if b.flt.step = 1 && !isClassS src then
    if b.flt.latched.contains (src, index) then b
    else { b with flt := { b.flt with latched := b.flt.latched ++ [(src, index)] } }
  else
    let was := b.pendingSrc src
    let none := b.flt.insts.isEmpty
    let b := { b with flt := { b.flt with insts := (src, index) :: b.flt.insts,
                                          first := if none then src else b.flt.first, latest := src } }
    let b := b.logFault src index
    let b := if isClassS src then b else b.restartEvent
    if was then b
    else if b.clk.svcStopped && !isClassS src then { b with flt := { b.flt with waiting := b.flt.waiting ++ [(src, index)] } }
    else b.react src index

/-- The service domain has a clock again: the reactions that waited act for the sources still pending (R337). -/
def Block.serveReactions (b : Block) : Block :=
  (b.flt.waiting.filter (fun e => b.pendingSrc e.1)).foldl (fun b e => b.react e.1 e.2)
    { b with clk := { b.clk with svcStopped := false }, flt := { b.flt with waiting := [] } }

/-- A source's flag is set in its own register (R377). -/
def Block.setFlag (b : Block) (src index : Nat) : Block :=
  match flagOf src with
  | some (f, perInst) => b.put f 1 (if perInst then index else 0)
  | none => b

/-- A condition is reported: the flag is set whatever the configuration, and the instance raised (R377). -/
def Block.report (b : Block) (src index : Nat) : Block := (b.setFlag src index).raise src index

/-- Step 3 of Table 13-7: the collector rebuilds the pending bits and their reactions act, except Block reset (R399).
DEDUCED, log 53. -/
def Block.rebuild (b : Block) : Block :=
  let due := b.flt.latched
  let b := { b with flt := { b.flt with step := 2, latched := [] } }
  due.foldl (fun b e => b.raise e.1 e.2) b

/-- Time passes to `t`; ten microseconds into a block warm reset the pending bits are rebuilt (Table 13-7).
DESIGN CHOICE, log 2, 58. -/
def Block.at (b : Block) (t : Nat) : Block :=
  let b := b.setNow t
  if b.flt.step = 1 && b.flt.startedAt + 10000 ≤ b.now then b.rebuild else b

/-- POOL_EMPTY is raised for a weave whose last idle spare has just been taken (R379). DEDUCED, log 53. -/
def Block.notePool (b : Block) (w : Nat) (before : Nat) : Block :=
  if before > 0 && (b.idleSpares w).isEmpty then b.raise srcPOOL_EMPTY w else b

/-- A change of the block after which every weave whose pool it emptied raises POOL_EMPTY (R379). -/
def Block.withPools (b : Block) (f : Block → Block) : Block :=
  let before := weaves.map (fun w => (b.idleSpares w).length)
  (f b).each weaves (fun b w => b.notePool w (before.getD w 0))

/-- Every populated phase in service is forced to SAFE, idle and calibrating spares included (R380). -/
def Block.forceAll (b : Block) : Block := b.withPools (fun b => b.each phases Block.enterSafe)

/-- Every region not DARK-FAULTED is taken DARK by a block-wide class S source: phases SAFE, headers open, outputs at
0, swap-ins aborted (Table 13-2). -/
def Block.allDark (b : Block) : Block :=
  b.each regions (fun b n => if b.st n = sFaulted then b.zeroOut n else b.toDark n)

/-- A class S event at the collector: forcing, and the source raised; a thermal stop ends with the last region that it takes
down (R313, R316, R380, Table 13-2). DEDUCED, log 53. -/
def Block.classS (b : Block) (src index : Nat) : Block :=
  let b := b.setFlag src index
  let b :=
    if src = srcOV then b.withPools (fun b => b.toFaulted index causeOv true)
    else if src = srcSHORT then b.withPools (fun b => b.toFaulted index causeShort true)
    else if src = srcPH_ACTIVE_LOSS then b
    else
      let b := if b.thm.stopStep != 0 then
          { b with thm := { b.thm with stopStep := 0 }, quiesceReq := false, quiesceAck := false } else b
      b.forceAll.allDark
  (b.raise src index).stopCheck

/-- A fault or a forcing still holds a phase in SAFE (R81, R381). -/
def Block.heldSafe (b : Block) (p : Nat) : Bool :=
  [1, 2, 4, 7].any (fun c => (b.P p).faults.getLsbD c) || b.clk.forcing || b.extest ||
  b.pendingSrc srcSLO_STOP || b.pendingSrc srcCOLL_PARITY || b.pendingSrc srcHW_TRIP ||
  (match b.regionOfPhase p with
   | some n => b.raisedInst srcOV n || b.raisedInst srcSHORT n
   | none => false)

/-- A phase leaves SAFE: RETIRED when a spare has replaced it, else PARKED in its own position, or idle (R81, R381).
While its failure swap-in is still running it stays PARKED to the mapping boundary, which retires it (R86). -/
def Block.leaveSafe (b : Block) (p : Nat) : Block :=
  if b.cond p != cSafe || b.heldSafe p then b
  else b.setCond p (if (b.P p).replaced then cRetired else cParked)

/-- The source of a phase fault code (Table 3-12). -/
def phaseCode (src : Nat) : Nat :=
  if src = srcFAIL_OPEN then 1 else if src = srcFAIL_SHORT then 2 else if src = srcSENSE_FAIL then 3
  else if src = srcSTAGE_OT then 4 else if src = srcWEAR_RON then 5 else if src = srcWEAR_SENSE then 6
  else if src = srcCAL_FAIL then 7 else 0

/-- The guard temperature of a region, 1/100 of 0.25 °C (R309). -/
def Block.guardT (b : Block) (n : Nat) : Int := b.thm.tg.get (fun _ => 0) n

/-- Every T_g is below THROTTLE (R315, R316), as of the last sample. -/
def Block.allCool (b : Block) : Bool := regions.all (fun n => b.guardT n < 400 * b.thm.thr)

/-- The clearing rule of a source allows an instance to be cleared by the host (Table 13-1). DEDUCED, log 35. -/
def Block.clearAllowed (b : Block) (src index : Nat) : Bool :=
  if [srcCOLL_PARITY, srcSLO_STOP, srcSHORT, srcIMG_SAFE].contains src then false
  else if src = srcHW_TRIP || src = srcTHM_STOP then b.allCool
  else if src = srcCAPACITY then b.capacity index ≥ b.efld REG_PCTL_IDLE_MIN index
  else if src = srcSTAGE_OT then
    (match (b.P index).otAt with
     | some t => t + 1000000 < b.now
     | none => true)
  else if src = srcSENSE_FAIL then b.cond index != cBlind
  else true

/-- An instance stands: it is raised, or was raised in the first 10 µs of a block warm reset and is still latched (R399). -/
def Block.standing (b : Block) (src index : Nat) : Bool := b.raisedInst src index || b.flt.latched.contains (src, index)

/-- The instances of a source that stand. -/
def Block.standingOf (b : Block) (src : Nat) : List Nat := ((b.flt.insts ++ b.flt.latched).filter (fun e => e.1 = src)).map (·.2)

/-- A region fault has been cleared: DARK-FAULTED ends in DARK and CAUSE returns to 0, unless another region fault
still stands (R157, R388). In minimum safe mode the region then starts at once (R419). -/
def Block.leaveFaulted (b : Block) (n : Nat) : Block :=
  if b.st n = sFaulted && !([srcOV, srcSHORT, srcOVC_DEAD, srcCAPACITY, srcSS_TIMEOUT].any (fun s => b.standing s n))
  then
    let b := (b.setSt n sDark).put REG_PSTATE_CAUSE 0 n
    if b.bit IMG_STATUS_SAFE && !b.wakeIgnored n then b.startExit n else b
  else b

/-- The forcing of a block-wide class S source has been released: phases leave SAFE, and a region outside every group
starts its Dawn as at start-up (R381, R160). -/
def Block.releaseAll (b : Block) : Block := (b.each phases Block.leaveSafe).startLoose

/-- FLASH_FAIL cleared: commits may start again (R429). -/
def Block.commitsAgain (b : Block) : Block :=
  { b.put IMG_JRNL_STOPPED 0 with img := { b.img with fails := 0 } }

/-- What clearing an instance does beyond its flag (R388). -/
def Block.clearEffect (b : Block) (src index : Nat) : Block :=
  if src = srcOV then
    let b := (b.put REG_STATUS_OV 0 index).leaveFaulted index
    b.each (b.mapped index) Block.leaveSafe
  else if src = srcOVC_DEAD || src = srcCAPACITY || src = srcSS_TIMEOUT then b.leaveFaulted index
  else if phaseCode src != 0 then
    let b := if b.fld PH_STATE_FAULT index = phaseCode src then b.put PH_STATE_FAULT 0 index else b
    let b := b.modP index (fun x => { x with
      faults := x.faults &&& ~~~(1#16 <<< phaseCode src)
      ronAt := if src = srcWEAR_RON then some b.now else x.ronAt, ofsAt := if src = srcWEAR_SENSE then some b.now else x.ofsAt })
    b.leaveSafe index
  else if src = srcSENSE_CRACK then b.modR index (fun r => { r with clearProbe := true })
  else if src = srcDET_DEAD then b.modR index (fun r => { r with maskEnd := true })
  else if src = srcWIN_FAIL then b.modR index (fun r => { r with winFail := false })
  else if src = srcHW_TRIP then (b.put THM_STATUS_TRIP 0).releaseAll
  else if src = srcTHM_STOP then (b.put THM_STATUS_STOP 0).startLoose
  else if src = srcFLASH_FAIL then b.commitsAgain
  else b

/-- The instance is no longer raised, its flag clears when no instance for which it stands remains, and the effects of
clearing follow (R387, R388). -/
def Block.clearInst (b : Block) (src index : Nat) : Block :=
  let b := { b with flt := { b.flt with insts := b.flt.insts.filter (fun e => e != (src, index)),
                                        latched := b.flt.latched.filter (fun e => e != (src, index)) } }
  let b := match flagOf src with
    | some (f, true) => b.put f 0 index
    | some (f, false) => if !(b.standingOf src).isEmpty then b else b.put f 0
    | none => b
  b.clearEffect src index

/-- One instance is cleared, or the clear is refused (R387). -/
def Block.tryClear (b : Block) (src index : Nat) : Block :=
  if !b.standing src index then b
  else if b.clearAllowed src index then b.clearInst src index
  else b.put FLT_STATUS_CLR_REFUSED 1

/-- Every instance of a source is cleared that its rule allows (R387). -/
def Block.clearSrc (b : Block) (src : Nat) : Block := b.each (b.standingOf src) (fun b i => b.tryClear src i)

/-- The source a W1C bit of a register stands for, and its instance when the flag is per instance. -/
def flagSource (a bit : Nat) : Option (Nat × Option Nat) :=
  (List.range 128).findSome? (fun s =>
    match flagOf s with
    | some (f, true) => if f.lo = bit && f.base ≤ a && a < f.base + 1024 then some (s, some ((a - f.base) / 4)) else none
    | some (f, false) => if f.lo = bit && f.base = a then some (s, none) else none
    | none => none)

/-- The write of 1 to one W1C bit: a source's flag clears by its instances, any other bit at once (R387, Table 0-6). -/
def Block.clearBit (b : Block) (a bit : Nat) : Block :=
  let plain (b : Block) := b.setReg a (b.reg a &&& ~~~(1#32 <<< bit))
  match flagSource a bit with
  | none => plain b
  | some (s, some i) => if b.standing s i then b.tryClear s i else plain b
  | some (s, none) =>
    if !(b.standingOf s).isEmpty then b.clearSrc s
    else if s = srcTHM_STOP then (if b.bit THM_STATUS_STOP && b.allCool then (plain b).startLoose else b)
    else if s = srcFLASH_FAIL then (plain b).commitsAgain
    else if s = srcWIN_FAIL then (plain b).each regions (fun b n => b.modR n (fun r => { r with winFail := false }))
    else plain b

/-- The registers of chapter 5 with W1C bits, REG_PSTATE and REG_GSLEEP, whose clears wait for a boundary (R161). -/
def clearsLater (a : Nat) : Bool :=
  decide (REG_PSTATE_STATE.base ≤ a) && decide (a < REG_PSTATE_STATE.base + 1024) ||
  decide (REG_GSLEEP_SLEEP.base ≤ a) && decide (a < REG_GSLEEP_SLEEP.base + 128)

/-- The W1C bits of a write are cleared one by one, lowest first, or with the next boundary (R161, R387, Table 0-6). -/
def Block.writeFlags (b : Block) (a : Nat) (data : Word) : Block :=
  match findReg a with
  | none => b
  | some d =>
    if data &&& d.w1c = 0 then b
    else if clearsLater a then { b with clearDue := b.clearDue.set (fun _ => 0) a (b.clearDue.get (fun _ => 0) a ||| (data &&& d.w1c)) }
    else (List.range 32).foldl (fun b i => if (data &&& d.w1c).getLsbD i then b.clearBit a i else b) b

/-- A fault of a phase: its code, its effect and the swap-in it asks for (Table 3-6, R84, R85). -/
def Block.phaseFault (b : Block) (p src : Nat) : Block :=
  let b := b.put PH_STATE_FAULT (phaseCode src) p
  let b := b.modP p (fun x => { x with faults := x.faults ||| (1#16 <<< phaseCode src) })
  let l := b.logical p
  let planned := src = srcWEAR_RON || src = srcWEAR_SENSE
  let b :=
    if planned then b
    else if src = srcSENSE_FAIL then (if b.cond p = cSwitching then b.setCond p cBlind else b)
    else b.withPools (fun b => b.enterSafe p)
  let b := b.raise src p
  if l < 1024 then
    let w := weaveOfPhase l
    let b := b.queueSwap w { lpos := l, planned := planned }
    if (b.idleSpares w).isEmpty then b.raise srcPOOL_EMPTY w else b
  else b

end Sys2Proof.Machine
end

