-- ==== Sys2Proof/Machine/AuxTrig.lean ====
section
/-! DEFINITION. What starts the auxiliary converters (R352, R356, R367): their timers, which count SLO cycles, and the PWM events of
phases. -/

namespace Sys2Proof.Machine

/-- The word of ADC_AUXTRIG[i]. -/
def Block.auxWord (b : Block) (i : Nat) : Word := b.reg (ADC_AUXTRIG_MODE.base + 4 * i)

/-- A field of ADC_AUXTRIG[i] in force: since the converter's last start (R367). -/
def Block.auxFld (b : Block) (f : Fld) (i : Nat) : Nat :=
  Fld.get f (b.adc.auxCfg.get (fun i => resetWord (ADC_AUXTRIG_MODE.base + 4 * i)) i)

/-- The converter starts on its timer: in timer mode, or while its phase has no events (R356). -/
def Block.auxByTimer (b : Block) (i : Nat) : Bool := b.auxFld ADC_AUXTRIG_MODE i = 0 || b.adc.auxTimer.getLsbD i

/-- A trigger reaches converter `i`, whose conversion starts `fine` fine steps later; while it converts the trigger is dropped
(R352). A start brings the register's word into force (R367). DEDUCED, log 41. -/
def Block.auxStart (b : Block) (i fine : Nat) : Block :=
  if (b.adc.auxBusy.get (fun _ => none) i).isSome then b
  else
    let cfg := fun i => resetWord (ADC_AUXTRIG_MODE.base + 4 * i)
    let w := b.auxWord i
    b.modAdc (fun a => { a with
      auxBusy := a.auxBusy.set (fun _ => none) i (some (b.now, fine)), auxCfg := a.auxCfg.set cfg i w
      auxEvAt := if a.auxCfg.get cfg i = w then a.auxEvAt else a.auxEvAt.set (fun _ => 0) i b.now })

/-- An SLO cycle of converter `i`'s timer: a start every PER + 1 cycles, a PER below 7 acting as 7 (R356). -/
def Block.auxCycle (b : Block) (i : Nat) : Block :=
  let c := b.adc.auxCount.get (fun _ => 0) i + 1
  let due := c ≥ max 7 (b.auxFld ADC_AUXTRIG_PER i) + 1
  let b := b.modAdc (fun a => { a with auxCount := a.auxCount.set (fun _ => 0) i (if due then 0 else c) })
  if due && b.auxByTimer i then b.auxStart i 0 else b

/-- The fine steps from the start of a weave's period to the event of phase `p` that starts converter `i`, with its delay of 8 fine
steps for each phase-clock step; ON_START and ON_END fall at SLOT without an on-time. None for the reserved code. Of an on-time
the loop's part counts (R356, Table 12-3). DEDUCED, log 41. -/
def Block.auxEvent (b : Block) (i p : Nat) : Option Nat :=
  let x := b.P p
  let e := b.auxFld ADC_AUXTRIG_EVENT i
  if e = 3 then none else some (x.offset + (if e = 2 then x.duty else 0) + 8 * b.auxFld ADC_AUXTRIG_DELAY i)

/-- The PWM events of a weave's new switching period: a converter whose phase switches returns to PWM mode, and starts if it is free
(R356). -/
def Block.auxEvents (b : Block) (w : Nat) : Block :=
  b.each (List.range 16) (fun b i =>
    let p := b.auxFld ADC_AUXTRIG_PHASE i
    if b.auxFld ADC_AUXTRIG_MODE i = 1 && weaveOfPhase p = w && p < 1088 && b.inService p && (b.P p).drive = .loop then
      match b.auxEvent i p with
      | some fine => (b.modAdc (fun a => { a with
          auxTimer := a.auxTimer &&& ~~~(1#16 <<< i), auxEvAt := a.auxEvAt.set (fun _ => 0) i b.now })).auxStart i fine
      | none => b
    else b)

/-- The conversion of converter `i` has started: its delay has passed, in fine steps of 1/256 period (Table 3-1). -/
def Block.auxStarted (b : Block) (i : Nat) : Bool :=
  match b.adc.auxBusy.get (fun _ => none) i with
  | some (t, fine) => decide ((t : Rat) + (fine : Rat) * (if b.isV then 10 else 50 / 7) / 256 ≤ b.now)
  | none => false

/-- AUX_PWM_FALLBACK: no event of the named phase for 1 µs; the converter starts on its timer (R356). -/
def execAuxPwmFallback (t i : Nat) (s : State) : Host.Outcome State Fault Refusal :=
  s.run (fun b =>
    let b := b.at t
    if i < 16 && b.auxFld ADC_AUXTRIG_MODE i = 1 && b.adc.auxEvAt.get (fun _ => 0) i + 1000 ≤ b.now then
      b.modAdc (fun a => { a with auxTimer := a.auxTimer ||| (1#16 <<< i) })
    else b)

end Sys2Proof.Machine
end

