-- ==== Sys2Proof/Machine/Operands.lean ====
section
/-! DEFINITION. The engine's number formats and roundings (chapter 7): C18, T10, W36 and I16 read from their bits, exact
values rounded back, and the rows of 1,152 bits that hold them (R171). An exact value is an integer `x` with a scale
`s`: it stands for x / 2^s. -/

namespace Sys2Proof.Machine

/-- A floating format: exponent width, fraction width, bias (Table 7-1). -/
structure Fmt where
  e : Nat
  f : Nat
  bias : Nat
  deriving DecidableEq, Repr

def fmtC18 : Fmt := { e := 6, f := 11, bias := 31 }
def fmtT10 : Fmt := { e := 4, f := 5, bias := 7 }
def fmtW36 : Fmt := { e := 8, f := 27, bias := 127 }

/-- The all-ones exponent. -/
def Fmt.emax (m : Fmt) : Nat := 2 ^ m.e - 1

/-- The scale at which every number of the format is an integer. -/
def Fmt.scale (m : Fmt) : Nat := m.bias - 1 + m.f

/-- The value of an encoding at the format's scale; none for a NaN (R212). -/
def Fmt.read (m : Fmt) (v : Nat) : Option Int :=
  let ex := v / 2 ^ m.f % 2 ^ m.e
  if ex = 0 then some 0
  else if ex = m.emax then none
  else
    let mag : Int := ((2 ^ m.f + v % 2 ^ m.f) * 2 ^ (ex - 1) : Nat)
    some (if v / 2 ^ (m.e + m.f) % 2 = 1 then -mag else mag)

/-- The canonical NaN (R213). -/
def Fmt.nan (m : Fmt) : Nat := m.emax * 2 ^ m.f + 2 ^ (m.f - 1)

/-- The largest finite magnitude (Table 7-4). -/
def Fmt.largest (m : Fmt) : Nat := m.emax * 2 ^ m.f - 1

/-- A natural number divided by 2^k, rounded to nearest with ties to even. -/
def halfEven (x k : Nat) : Nat :=
  let q := x / 2 ^ k
  let r := 2 * (x % 2 ^ k)
  if r < 2 ^ k then q else if r > 2 ^ k then q + 1 else q + q % 2

/-- An exact value x / 2^s rounded to a floating format, and whether OVF is set (R216). -/
def Fmt.round (m : Fmt) (x : Int) (s : Nat) : Nat × Bool :=
  if x = 0 then (0, false)
  else
    let a := x.natAbs
    let l := Nat.log2 a
    let sig := if l ≤ m.f then a * 2 ^ (m.f - l) else halfEven a (l - m.f)
    let up := sig = 2 ^ (m.f + 1)
    let sig := if up then 2 ^ m.f else sig
    let ex : Int := (l : Int) - s + (if up then 1 else 0) + m.bias
    let sign := if x < 0 then 2 ^ (m.e + m.f) else 0
    if ex < 1 then (0, false)
    else if ex > (m.emax : Int) - 1 then (sign + m.largest, true)
    else (sign + ex.toNat * 2 ^ m.f + (sig - 2 ^ m.f), false)

/-- An exact value rounded to the nearest integer, ties to even (R216). -/
def roundInt (x : Int) (s : Nat) : Int :=
  if x < 0 then -(halfEven x.natAbs s : Int) else (halfEven x.natAbs s : Int)

/-- A rational rounded to a floating format (R216): enough bits are kept, and a sticky bit for the rest. -/
def Fmt.roundRat (m : Fmt) (x : Rat) : Nat :=
  let k := m.bias + m.f + 8
  let a := x.num.natAbs * 2 ^ k
  let q := 2 * (a / x.den) + (if a % x.den = 0 then 0 else 1)
  (m.round (if x.num < 0 then -(q : Int) else (q : Int)) (k + 1)).1

/-! TY codes of Table 6-5: 0 C18, 1 W36, 2 I16. -/

/-- An I16 value: bits [15:0] as a signed integer (R215). -/
def readI16 (v : Nat) : Int := if v % 65536 < 32768 then (v % 65536 : Nat) else ((v % 65536 : Nat) : Int) - 65536

/-- An I16 value in an 18-bit lane: bits [17:16] equal bit 15 (R171). -/
def laneI16 (x : Int) : Nat := (x % 262144).toNat

/-- The scale of a TY's exact values. -/
def scaleOf (ty : Nat) : Nat := if ty = 0 then fmtC18.scale else if ty = 1 then fmtW36.scale else 0

/-- An operand read in format TY; none for a NaN. -/
def readTy (ty v : Nat) : Option Int :=
  if ty = 0 then fmtC18.read v else if ty = 1 then fmtW36.read v else some (readI16 v)

/-- An exact value rounded to TY, and whether OVF is set (R216). -/
def roundTy (ty : Nat) (x : Int) (s : Nat) : Nat × Bool :=
  if ty = 0 then fmtC18.round x s
  else if ty = 1 then fmtW36.round x s
  else
    let v := roundInt x s
    if v > 32767 then (laneI16 32767, true) else if v < -32768 then (laneI16 (-32768), true) else (laneI16 v, false)

/-- What an operation whose operand is NaN gives: the canonical NaN, or −32,768 in I16 (R213, R221, R224). -/
def nanTy (ty : Nat) : Nat :=
  if ty = 0 then fmtC18.nan else if ty = 1 then fmtW36.nan else laneI16 (-32768)

/-- Values per region of a block in format TY: rows 0..3, or two W36 values (R173). -/
def valuesOf (ty : Nat) : Nat := if ty = 1 then 2 else 4

/-! Rows of 1,152 bits. -/

/-- Lane `i` of a row of lanes of `w` bits. -/
def laneOf (r : BRow) (w i : Nat) : Nat := r.toNat / 2 ^ (w * i) % 2 ^ w

/-- The natural number of a list of lanes of `w` bits, lane 0 first. -/
def packNat (w : Nat) : List Nat → Nat
  | [] => 0
  | v :: r => v % 2 ^ w + 2 ^ w * packNat w r

/-- A row from its lanes. -/
def packRow (w : Nat) (ls : List Nat) : BRow := BitVec.ofNat 1152 (packNat w ls)

end Sys2Proof.Machine
end

