-- ==== Sys2Proof/Machine/Flags.lean ====
section
/-! DEFINITION. The slices' sticky arithmetic flags (R217, R218, R227), and the exact arithmetic of one lane with the
flags it sets. -/

namespace Sys2Proof.Machine

/-- What one lane of an operation gives: the bits written, and whether it sets INV or OVF. -/
structure LRes where
  bits : Nat
  inv : Bool := false
  ovf : Bool := false
  deriving DecidableEq, Repr

/-- The block with its engine changed. -/
def Block.modEng (b : Block) (f : Eng → Eng) : Block := { b with eng := f b.eng }

/-- The bits INVq and OVFq of ENG_ARITH (Table 7-13). -/
def arithInv (q : Nat) : Fld := { base := ENG_ARITH_INV0.base, hi := 2 * q, lo := 2 * q }
def arithOvf (q : Nat) : Fld := { base := ENG_ARITH_INV0.base, hi := 2 * q + 1, lo := 2 * q + 1 }

/-- An operation in slice `q` sets the slice's flags and their sticky copies (R217, R227). -/
def Block.noteFlags (b : Block) (q : Nat) (inv ovf : Bool) : Block :=
  let b := if inv then (b.modEng (fun e => { e with inv := e.inv ||| BitVec.ofNat 4 (2 ^ q) })).put (arithInv q) 1 else b
  if ovf then (b.modEng (fun e => { e with ovf := e.ovf ||| BitVec.ofNat 4 (2 ^ q) })).put (arithOvf q) 1 else b

/-- The flags of slice `q` as AFLG reads them: INV in bit 0, OVF in bit 1 (R217). -/
def Eng.flagsOf (e : Eng) (q : Nat) : Nat :=
  (if e.inv.getLsbD q then 1 else 0) + (if e.ovf.getLsbD q then 2 else 0)

/-- An exact result of TY, rounded once (R219). -/
def laneExact (ty : Nat) (x : Int) (s : Nat) : LRes :=
  let r := roundTy ty x s
  { bits := r.1, ovf := r.2 }

/-- The result of an arithmetic operation with a NaN operand (R213, R218). -/
def laneNan (ty : Nat) : LRes := { bits := nanTy ty, inv := true }

/-- BA + BB, rounded once (R219). -/
def laneAdd (ty x y : Nat) : LRes :=
  match readTy ty x, readTy ty y with
  | some a, some c => laneExact ty (a + c) (scaleOf ty)
  | _, _ => laneNan ty

/-- BA − BB, rounded once (R219). -/
def laneSub (ty x y : Nat) : LRes :=
  match readTy ty x, readTy ty y with
  | some a, some c => laneExact ty (a - c) (scaleOf ty)
  | _, _ => laneNan ty

/-- BA × BB, rounded once (R219). -/
def laneMul (ty x y : Nat) : LRes :=
  match readTy ty x, readTy ty y with
  | some a, some c => laneExact ty (a * c) (2 * scaleOf ty)
  | _, _ => laneNan ty

/-- BA × BB + BD, formed exactly and rounded once (R219). -/
def laneFma (ty x y z : Nat) : LRes :=
  match readTy ty x, readTy ty y, readTy ty z with
  | some a, some c, some d => laneExact ty (a * c + d * 2 ^ scaleOf ty) (2 * scaleOf ty)
  | _, _, _ => laneNan ty

/-- The lesser or the greater, a NaN being absent (R220): zeros give +0, and INV is set when a NaN is read (R218). -/
def lanePick (least : Bool) (ty x y : Nat) : LRes :=
  match readTy ty x, readTy ty y with
  | some a, some c => laneExact ty (if least then min a c else max a c) (scaleOf ty)
  | some a, none => { laneExact ty a (scaleOf ty) with inv := true }
  | none, some c => { laneExact ty c (scaleOf ty) with inv := true }
  | none, none => laneNan ty

/-- min(max(BD, BA), BB), each step by the rules of VMIN and VMAX (R220). -/
def laneClamp (ty d x y : Nat) : LRes :=
  let m := lanePick false ty d x
  let r := lanePick true ty m.bits y
  { r with inv := r.inv || m.inv }

/-- VMINI takes BA where BA < BD, or where BD alone is NaN (R220). -/
def laneWins (ty d x : Nat) : Bool :=
  match readTy ty d, readTy ty x with
  | some a, some c => c < a
  | none, some _ => true
  | _, none => false

/-- The comparison FN[2:0] of BA with BB (Table 6-5, R220). -/
def laneCmp (ty fn x y : Nat) : Bool :=
  match fn % 8, readTy ty x, readTy ty y with
  | 0, some a, some c => a < c
  | 1, some a, some c => a ≤ c
  | 2, some a, some c => a = c
  | 3, some a, some c => a ≠ c
  | 3, _, _ => true
  | 4, none, _ => true
  | _, _, _ => false

/-- 1.0 in format TY (R220). -/
def oneTy (ty : Nat) : Nat := if ty = 0 then 0xF800 else if ty = 1 then 0x3F8000000 else 1

/-- A lane is not zero: a NaN selects, and no zero encoding does (R220). -/
def laneNonZero (ty x : Nat) : Bool := readTy ty x != some 0

/-- A lane converted from one format to another (R221, Table 7-7). -/
def laneCvt (src ty x : Nat) : LRes :=
  match readTy src x with
  | some a => laneExact ty a (scaleOf src)
  | none => laneNan ty

end Sys2Proof.Machine
end

