-- ==== Sys2Proof/Machine/TraceMem.lean ====
section
/-! DEFINITION. Trace memory as a ring of records (R478, R482): its fill, the loss of a record, and records going out. -/

namespace Sys2Proof.Machine

/-- The words of trace memory. -/
def traceWords : Nat := 524288

/-- Words held. -/
def Trc.fill (t : Trc) : Nat := (t.mem.map (·.len)).sum

/-- The oldest record leaves the ring. -/
def Trc.dropOldest (t : Trc) : Trc :=
  match t.mem with
  | [] => t
  | r :: rest => { t with mem := rest, base := (t.base + r.len) % traceWords }

/-- Ticks that a record stands for, when it is lost. -/
def TrcRec.ticks (r : TrcRec) : Nat := if r.kind = 4 then r.twait else if r.kind = 1 || r.kind = 2 then 1 else 0

/-- A GAP record of `len` words for lost records: the ticks they stood for, kept in `twait`, and the TICKNO, DET and ARRAYS of the first
of them (R479, R482, R491). DESIGN CHOICE, log 51. -/
def gapRec (lost : List TrcRec) (len : Nat) : TrcRec :=
  let r := lost.headD { kind := 4 }
  { kind := 4, flags := r.flags / 8 * 8, tickLo := r.tickLo, twait := (lost.map TrcRec.ticks).sum, len := len }

/-- The record that holds the word at distance `d` from the oldest is lost: a GAP stands in its place. -/
def loseAt : List TrcRec → Nat → List TrcRec
  | [], _ => []
  | r :: rest, d => if d < r.len then gapRec [r] r.len :: rest else r :: loseAt rest (d - r.len)

/-- A word lost to an uncorrectable error loses its record (R395, R482). -/
def Trc.loseWord (t : Trc) (w : Nat) : Trc :=
  { t with mem := loseAt t.mem ((w + traceWords - t.base) % traceWords) }

end Sys2Proof.Machine
end

