-- ==== Sys2Proof/WellFormed.lean ====
section
/-! DEFINITION. Well-formed commands: indices within the counts of Table 1-2, and for the engine's instructions the
field ranges, the reserved codes and the array limits of R174 to R176 and R193. A term that is not well-formed stands
for no event of the block. -/

namespace Sys2Proof

/-- The TY codes that are not reserved (Table 6-5). -/
def tyOk (ty : Nat) : Bool := ty < 3

/-- Ranges of the fields of format M (Table 6-3). -/
def MOp.ok (o : MOp) : Bool := o.bd < 32 && o.sb < 16 && o.rm < 16 && o.ofs < 8192

/-- Ranges of the fields of format R (Table 6-3), TY not reserved. -/
def ROp.ok (o : ROp) : Bool := o.bd < 32 && o.ba < 32 && o.bb < 32 && o.fn < 256 && tyOk o.ty

/-- K, MT and NG of format X (R175). -/
def XOp.k (o : XOp) : Nat := o.km1 + 1
def XOp.mt (o : XOp) : Nat := o.mtm1 + 1
def XOp.ng (o : XOp) : Nat := o.ngm1 + 1

/-- The number of input blocks of an array instruction: four elements to a block, two in W36 (R175, R176). -/
def XOp.blocks (o : XOp) (perBlock : Nat) : Nat := (o.k + perBlock - 1) / perBlock

/-- Ranges of the fields of format X, and the limits of R176: at most 1,024 cells, lanes within 63 (15 for SH 0b10),
and input blocks within B31. -/
def XOp.ok (o : XOp) (outs lanes perBlock : Nat) : Bool :=
  o.ba < 32 && o.ac < 4 && o.km1 < 32 && o.mtm1 < 16 && o.ngm1 < 4 && o.sb < 16 && o.sh < 3 &&
  outs * lanes ≤ 1024 && lanes ≤ (if o.sh = 2 then 16 else 64) && o.ba + o.blocks perBlock ≤ 32

/-- Outputs and lanes of the array instructions (Table 6-6). -/
def XOp.mvbOuts (o : XOp) : Nat := o.mt * 16 * 2 ^ o.sh
def XOp.mvbLanes (o : XOp) : Nat := 16 / 2 ^ o.sh * o.ng
def XOp.mvbOk (o : XOp) : Bool := o.ok o.mvbOuts o.mvbLanes 4
def XOp.mvrOk (o : XOp) : Bool := o.sh = 0 && o.ok o.mt (16 * o.ng) 4
def XOp.mvpOk (o : XOp) : Bool := o.sh = 0 && o.ok (o.mt * 8) (16 * o.ng) 4
def XOp.mvwOk (o : XOp) : Bool := o.sh = 0 && o.ok o.mt (16 * o.ng) 2

/-- BB and FN are not used: they must be 0 (R174). -/
def ROp.unary (o : ROp) : Bool := o.ok && o.bb = 0 && o.fn = 0
def ROp.binary (o : ROp) : Bool := o.ok && o.fn = 0

/-- BA, BB and TY are not used (R174). -/
def ROp.input (o : ROp) (groups : Nat) : Bool :=
  o.ok && o.ba = 0 && o.bb = 0 && o.ty = 0 && o.fn < groups

/-- A hint word of a given TYPE with TAG and reserved bits legal (R29, R30). -/
def hintType (h : BitVec 64) : Nat := (h.toNat / 2 ^ 60) % 16

/-- Word numbers of a memory (Table 6-2, Table 13-6). -/
def memWords (m : Nat) : Nat := [4096, 32768, 65536, 16384, 131072, 524288].getD m 0

/-- The command stands for an event of the block. DESIGN CHOICE, log 4. -/
def Instr.wf : Instr → Bool
  | .hostRegisterWrite _ a _ _ => a < 0x40000
  | .energyLoRead a => a % 4 = 0 && a < 0x40000
  | .flagW1cClear _ a _ => a % 4 = 0 && a < 0x40000
  | .swapRequest _ w _ => w < 16
  | .groupSleepRequest _ g _ => g < 32
  | .groupWakeRequest _ g _ => g < 32
  | .fTglCapture _ n f c => n < 256 && f < 64 && c < 64
  | .fidxLateTimeout _ n => n < 256
  | .loop c l => 0 < c && c < 1024 && 0 < l && l < 4096
  | .smov sd imm => sd < 13 && imm < 2 ^ 22
  | .sadd sd imm => sd < 13 && imm < 2 ^ 22
  | .cyc sd _ => sd < 8
  | .tick sd imm => sd < 8 && imm < 2
  | .aflg sd imm => sd < 8 && imm < 2
  | .lds o _ => o.ok
  | .sts o => o.ok
  | .ldc o _ => o.ok
  | .mvb o _ _ => o.mvbOk
  | .mvr o _ _ => o.mvrOk
  | .mvp o _ _ => o.mvpOk
  | .mvw o _ _ => o.mvwOk
  | .acrd o => o.ok && o.bb = 0 && o.ba < 4
  | .acxw o => o.ok && o.bb = 0 && o.ty = 0 && o.ba < 4 && o.bd < 4
  | .redx o => o.unary
  | .reda o q => o.unary && q.length = 4 && [0, 1, 2, 3].all q.contains
  | .vadd o => o.binary
  | .vsub o => o.binary
  | .vmul o => o.binary
  | .vfma o => o.binary
  | .vcvt o => o.ok && o.bb = 0 && tyOk o.fn
  | .vxw o => o.unary
  | .vsuml o => o.unary
  | .prng o => o.unary && o.ba = 0 && o.ty = 2
  | .vmin o => o.binary
  | .vmax o => o.binary
  | .vclmp o => o.binary
  | .vmini o => o.ok
  | .vcmp o => o.ok && o.fn < 5
  | .vsel o => o.ok && o.bb = 0 && o.ty = 0 && o.fn < 16
  | .vsell o => o.binary
  | .tlop o _ => o.unary && o.ty != 1
  | .tluf o _ => o.ok && o.bb = 0 && o.fn < 16
  | .rdsnp o => o.input 8
  | .rdhint o => o.input 2
  | .rdact o => o.input 8
  | .rdasy o => o.input 8
  | .wrout o => o.ok && o.bd = 0 && o.bb = 0 && o.ty = 0 && o.fn < 7
  | .wrflg imm => imm < 256
  | .rsend o _ => o.ok && o.bd = 0 && o.bb = 0 && o.ty = 0 && o.fn = 6
  | .scrubAccess _ m h _ _ => h.word < memWords m
  | .scrubRemap m w => w < memWords m
  | .fastLoopPeriod _ w ws _ => w < 16 && ws.length = 16
  | .senseFrame p _ => p < 1088
  | .fastLimitTrip p => p < 1088
  | .safeZeroCross p => p < 1088
  | .safeLowSideTimeout p => p < 1088
  | .plaitRotation w => w < 16
  | .droopEpisodeStart _ n c => n < 256 && c < 16
  | .droopRound n => n < 256
  | .droopEpisodeEnd _ n => n < 256
  | .droopAssertMinExpiry _ n => n < 256
  | .swapinStart _ w => w < 16
  | .sackReceived w _ => w < 16
  | .swapinSackTimeout _ w => w < 16
  | .calZeroDone _ w _ => w < 16
  | .calDelayDone _ w _ _ => w < 16
  | .calPulseDone _ w => w < 16
  | .regionSenseConversion c v => c < 272 && v < 4096
  | .probeStart _ n => n < 256
  | .probeEnd _ n => n < 256
  | .ovTrip _ n k => n < 256 && k < 4
  | .uvTimeout _ n => n < 256
  | .detectorStuckTimeout _ n k => n < 256 && k < 4
  | .raiseSlowTimeout _ n => n < 256
  | .converterCheckFail n => n < 256
  | .arbiterDone _ w v => w < 16 && v < 4096
  | .gainTRead _ p _ _ => p < 1088
  | .gainTRetry _ p _ _ => p < 1088
  | .phtrigConfig p _ => p < 1088
  | .auxConversion _ i v => i < 16 && v < 4096
  | .auxPwmFallback _ i => i < 16
  | .refSettled g => g < 4
  | .forecastExitStart _ n => n < 256
  | .regionReady _ n => n < 256
  | .softstartStage _ n => n < 256
  | .softstartTimeout _ n => n < 256
  | .detectorSelfTestDone _ n d o => n < 256 && d < 16 && o < 16
  | .dawnStage _ n => n < 256
  | .duskStage _ n => n < 256
  | .resetDuskStart _ w => w < 16
  | .stopRegionDown _ n => n < 256
  | .barrierStale g _ => g < 32
  | .ticknoLoRead | .chipidLoRead | .engHalt _ | .engResume _ | .engMemRead _ | .engMemReadDone _ _ | .engMemWrite _
  | .phSwap _ | .svcSwap _ | .psyncEnable _ | .xb10kWrite _ | .adcRefWrite _ | .calZeroPoint _ | .calFullPoint _
  | .calPointDone _ | .rcDataWrite _ | .rcCommit _ | .holdDarkWrite _ _ | .pmbHostTransfer _ | .trcOneshot _ | .trcRing _
  | .trcModeOff _ | .trcStop _ | .trcReplayStart _ | .trcTickset _ | .trcFlagsWrite _ | .hoopLeave _ _ | .hoopEntWrite _
  | .slowCapLimitWrite _ _ | .fltClear _ _ | .thmStopClear _ _ | .breset _ _ | .forecast _ _ | .barrierEnter _ _
  | .barrierExit _ _ | .phaseTag _ _ | .latency _ _ | .hintReservedType _ _ | .actFrameComplete _ _ | .actStaleTimeout _
  | .heldCounterRun _ | .tickBoundary _ _ | .engineClockRestart _ | .initRun _ _ | .nop | .twait _
  | .delayChainCalibration _ | .extRefCheck _ _ | .chipReset _ | .chipResetEnd _ | .tempSample _ _ | .quiesceAck _
  | .quiesceAckTimeout _ | .flashWindowReopen _ | .clockSourceLoss _ _ | .freqMonitorWindow _ _ | .sourceRecovered _ _
  | .loopRereference _ | .sloStop _ | .phActiveLoss _ | .failoverResume _ | .phaseClockCollapse _ | .sscTurningPoint
  | .psyncLock | .classSEvent _ _ _ | .collParityCheck _ _ | .vinGood _ | .vinBad _ | .alwaysOnReady _ | .imageLoad _ _ _ _
  | .flashReady _ | .loadTimeout _ _ | .digestReady _ _ | .imgTrustedRise _ _ | .trustTimeout _ | .safeModeCommit _
  | .journalCommitStart _ | .flashOpDone _ _ | .flashOpTimeout _ | .journalCommitComplete _ _ | .pmbStartList _ _ _
  | .pmbPoll _ _ | .pmbAlert _ _ _ _ _ | .pmbRetry _ _ _ | .tapExtest _ | .tapSamplePreload | .tapBypass | .tapIdcode
  | .testLogicReset _ | .hoopCap _ _ | .hoopBudget _ _ | .hoopPace _ _ | .hoopTickSync _ _ | .hoopFault _ _
  | .hoopProg _ _ | .hoopReservedType _ _ | .hoopBadFrame _ _ _ | .hoopOwnFrameReturn _ _ | .hoopResend _ _
  | .hoopLaneFail _ _ | .hoopLaneOk _ _ | .hoopAllocation _ | .hoopAllocatorTakeover _ | .hoopBudgetMissing _
  | .hoopDownTimeout _ | .hoopCapSend _ | .hoopTickSyncSend _ | .hoopBypassOpen _ | .traceRecordExport _
  | .traceTriggerStop _ | .stateRecordCopyDone | .replayTick _ | .clockSourceReady _ _ | .memoryTestDone _
  | .pmbTransferDone _ _ _ | .hoopRateLimitExpiry _ => true

end Sys2Proof
end

