-- ==== Sys2Proof/Machine/Engine.lean ====
section
/-! DEFINITION. The control engine's shared operations (chapter 6): pipeline timing, the issue of an instruction, block
registers, scalars, memories and their errors. -/

namespace Sys2Proof.Machine

/-! The engine's units (Table 6-8). -/
def uSeq : Nat := 0
def uSm : Nat := 1
def uCm : Nat := 2
def uTm : Nat := 3
def uArray : Nat := 4
def uAcc : Nat := 5
def uRed : Nat := 6
def uVec : Nat := 7
def uSnap : Nat := 8
def uOut : Nat := 9

/-- The cycles of an array instruction (Table 6-6). -/
def mvbCycles (o : XOp) : Nat := o.k * o.mt * o.ng
def mvrCycles (o : XOp) : Nat := o.mt * ((o.k + 15) / 16) * o.ng

/-- An array instruction's use of the pipeline (R176, R179). One that adds to an accumulator counts as reading it, and waits for what
writes it, which R184 leaves open: DESIGN CHOICE, log 69. -/
def arrayIssue (o : XOp) (mem cycles perBlock : Nat) : Issue :=
  let ins := (List.range (o.blocks perBlock)).map (o.ba + ·)
  { unit := uArray, mem := mem, occ := cycles, res := cycles + 4, drain := 4, rd := ins, inB := ins,
    rdA := if o.am then [o.ac] else [], wrA := [o.ac] }

/-- Elementwise timing (Table 6-8). -/
def elemIssue (o : ROp) (rd : List Nat) (slow : Bool) : Issue :=
  if o.ty = 1 then { unit := uVec, occ := 4, res := 6, rd := rd, wr := [o.bd] }
  else { unit := uVec, occ := 1, res := if slow then 4 else 3, rd := rd, wr := [o.bd] }

/-- Compare and select timing (Table 6-8). -/
def selIssue (rd wr : List Nat) : Issue := { unit := uVec, occ := 1, res := 2, rd := rd, wr := wr }

/-- The use of the pipeline by each engine instruction (Table 6-8). -/
def issueOf : Instr → Issue
  | .lds o _ => { unit := uSm, mem := 1, occ := 4, res := 6, wr := [o.bd] }
  | .ldc o _ => { unit := uCm, mem := 2, occ := 4, res := 7, wr := [o.bd] }
  | .sts o => { unit := uSm, mem := 1, occ := 4, res := 4, rd := [o.bd] }
  | .mvb o _ _ => arrayIssue o 4 (mvbCycles o) 4
  | .mvr o _ _ => arrayIssue o 4 (mvrCycles o) 4
  | .mvp o _ _ => arrayIssue o 2 (mvbCycles o) 4
  | .mvw o _ _ => arrayIssue o 2 (mvbCycles o) 2
  | .acrd o => { unit := uAcc, occ := 1, res := 3, rdA := [o.ba], wr := [o.bd] }
  | .acxw o => { unit := uAcc, occ := 4, res := 4, rdA := [o.ba], wrX := [o.bd] }
  | .redx o => { unit := uRed, occ := 12, res := 14, rd := [o.ba], wr := [o.bd] }
  | .reda o _ => { unit := uRed, occ := 6, res := 8, rd := [o.ba], wr := [o.bd] }
  | .vadd o => elemIssue o [o.ba, o.bb] false
  | .vsub o => elemIssue o [o.ba, o.bb] false
  | .vmul o => elemIssue o [o.ba, o.bb] false
  | .vfma o => elemIssue o [o.ba, o.bb, o.bd] true
  | .vcvt o => elemIssue o [o.ba] false
  | .vxw o => elemIssue o [o.ba] false
  | .vsuml o => elemIssue o [o.ba] true
  | .prng o => elemIssue o [] false
  | .vmin o => selIssue [o.ba, o.bb] [o.bd]
  | .vmax o => selIssue [o.ba, o.bb] [o.bd]
  | .vclmp o => selIssue [o.ba, o.bb, o.bd] [o.bd]
  | .vmini o => selIssue [o.ba, o.bb, o.bd] [o.bd, o.bb]
  | .vcmp o => selIssue [o.ba, o.bb] [o.bd]
  | .vsel o => selIssue [o.ba, o.bd] [o.bd]
  | .vsell o => selIssue [o.ba, o.bb, o.bd] [o.bd]
  | .tlop o _ => { unit := uTm, mem := 3, occ := 8, res := 10, rd := [o.ba], wr := [o.bd] }
  | .tluf o _ => { unit := uVec, mem := 2, occ := 1, res := 4, rd := [o.ba], wr := [o.bd] }
  | .rdsnp o => { unit := uSnap, occ := 1, res := 3, wr := [o.bd] }
  | .rdhint o => { unit := uSnap, occ := 1, res := 3, wr := [o.bd] }
  | .rdact o => { unit := uSnap, occ := 1, res := 3, wr := [o.bd] }
  | .rdasy o => { unit := uSnap, occ := 1, res := 4, wr := [o.bd] }
  | .wrout o => { unit := uOut, rd := [o.ba] }
  | .wrflg _ => { unit := uOut }
  | .rsend o _ => { unit := uOut, rd := [o.ba] }
  | _ => {}

/-- A cycle of a table of cycles; 0 where none is listed. -/
def cyc (m : SMap Nat) (k : Nat) : Nat := m.get (fun _ => 0) k

/-- The greatest entry of a table over some indices. -/
def cycMax (m : SMap Nat) (ks : List Nat) : Nat := ks.foldl (fun a k => max a (cyc m k)) 0

/-- Every listed index raised to at least a cycle. -/
def cycRaise (m : SMap Nat) (ks : List Nat) (c : Nat) : SMap Nat :=
  ks.foldl (fun m k => SMap.set (fun _ => 0) m k (max (cyc m k) c)) m

/-- The cycle at which an instruction issues: after the previous one, with its operands ready, its unit free, no array
reading a block it writes, and its accumulators drained (R179, R184). DESIGN CHOICE, log 20. -/
def Pipe.issueCycle (p : Pipe) (i : Issue) : Nat :=
  max p.next (max (cyc p.busy i.unit) (max (cycMax p.ready i.rd) (max (cycMax p.reading i.wr)
    (max (cycMax p.acc i.rdA) (cycMax p.accX i.rdA)))))

/-- The pipeline after an instruction issues at cycle `c`, its port held for `extra` stall cycles and those that wait on it. -/
def Pipe.after (p : Pipe) (i : Issue) (c extra : Nat) : Pipe :=
  let ext := extra + cyc p.late i.mem
  { next := c + i.slots
    busy := SMap.set (fun _ => 0) p.busy i.unit (c + i.occ + ext)
    late := SMap.set (fun _ => 0) p.late i.mem 0
    ready := cycRaise p.ready i.wr (c + i.res + ext)
    reading := cycRaise p.reading i.inB (c + i.occ + ext)
    acc := cycRaise p.acc i.wrA (c + i.res + ext)
    accX := cycRaise p.accX i.wrX (c + i.res + ext)
    done := max p.done (c + i.occ + i.drain + ext) }

/-- Stall cycles on a memory's port: program memory's delay the next issue, another's the next access (Table 6-10). That a collision
delays the access after it is the model's choice: DESIGN CHOICE, log 20. -/
def Pipe.stall (p : Pipe) (m cycles : Nat) : Pipe :=
  if m = 0 then { p with next := p.next + cycles }
  else { p with late := SMap.set (fun _ => 0) p.late m (cyc p.late m + cycles) }

/-- The word of program memory that holds an instruction (Table 6-2). -/
def pmWord (pc : Nat) : Nat := pc / 4

/-- The pipeline after what has moved it, oldest last, with the corrected instruction words `fetch` still to be met: the fetch of
each delays the next issue by 2 cycles (R170, R190). -/
def Pipe.retrace (start : Pipe) : List Beat → List Nat → Pipe × List Nat
  | [], fetch => (start, fetch)
  | .issue pc i extra :: r, fetch =>
    let (p, left) := Pipe.retrace start r fetch
    let p := if left.contains (pmWord pc) then p.stall 0 2 else p
    (p.after i (p.issueCycle i) extra, left.erase (pmWord pc))
  | .late m k :: r, fetch => let (p, left) := Pipe.retrace start r fetch; (p.stall m k, left)

/-- Stall cycles on a memory's port in the running program, kept for the tick's timing. -/
def Eng.portStall (e : Eng) (m cycles : Nat) : Eng := { e with pipe := e.pipe.stall m cycles, trail := .late m cycles :: e.trail }

/-- The cycle at which TWAIT issues: every earlier instruction has ended its occupancy and drain (Table 6-8). -/
def Pipe.waitCycle (p : Pipe) : Nat := max p.next p.done

/-- The program counter moves on, round the running loop while it has passes left (R185). DESIGN CHOICE, log 20. -/
def Eng.advance (e : Eng) : Eng :=
  if e.loopLeft > 0 && e.pc = e.loopEnd then
    if e.loopLeft = 1 then { e with pc := e.pc + 1, loopLeft := 0 }
    else { e with pc := e.loopTop, loopLeft := e.loopLeft - 1 }
  else { e with pc := e.pc + 1 }

/-- With an orphan quadrant the shared array executes a slice-local instruction a second time: it takes a second issue slot and
its unit again (R195). DESIGN CHOICE, log 20. -/
def Issue.twice (i : Issue) : Issue :=
  if i.unit = uSeq || i.unit = uRed || i.unit = uOut then i else { i with occ := 2 * i.occ, res := i.res + i.occ, slots := 2 }

/-- An instruction issues in the running program: the pipeline moves, the program counter advances (R168, R184, R195).
DESIGN CHOICE, log 20. -/
def Block.issue (b : Block) (i : Issue) (extra : Nat) : Block :=
  let i := if b.fld ENG_ARRAY_ORPHAN ≤ 3 then i.twice else i
  b.modEng (fun e =>
    ({ e with pipe := e.pipe.after i (e.pipe.issueCycle i) extra, stalls := e.stalls + extra
              trail := .issue e.pc i extra :: e.trail } : Eng).advance)

/-- The cycle at which the latest instruction issued. -/
def Eng.cycle (e : Eng) : Nat := e.pipe.next - 1

/-- An engine instruction: it has its effect when a program runs and its fields are legal; a word the loader refuses
never issues (R174, R193). DESIGN CHOICE, log 4, 20; DEDUCED, log 59. -/
def Block.engine (b : Block) (i : Instr) (extra : Nat) (f : Block → Block) : Block :=
  if b.eng.run = .none || !i.wf then b else f (b.issue (issueOf i) extra)

/-! Block registers and scalars (R173). -/

/-- A row of a block register of a slice. -/
def Eng.row (e : Eng) (q blk r : Nat) : BRow := e.blk.get (fun _ => 0) (q * 128 + blk * 4 + r)

/-- The engine with a row of a block register of a slice written. -/
def Eng.setRow (e : Eng) (q blk r : Nat) (v : BRow) : Eng :=
  { e with blk := e.blk.set (fun _ => 0) (q * 128 + blk * 4 + r) v }

/-- Value `v` of lane `i` of a block in format TY (R173). -/
def Eng.value (e : Eng) (q ty blk v i : Nat) : Nat :=
  if ty = 1 then laneOf (e.row q blk (2 * v + i / 32)) 36 (i % 32) else laneOf (e.row q blk v) 18 i

/-- Value `v` of a block written from its 64 lanes (R173). -/
def Eng.setValue (e : Eng) (q ty blk v : Nat) (ls : List Nat) : Eng :=
  if ty = 1 then (e.setRow q blk (2 * v) (packRow 36 (ls.take 32))).setRow q blk (2 * v + 1) (packRow 36 (ls.drop 32))
  else e.setRow q blk v (packRow 18 ls)

/-- The lanes of a slice. -/
def lanes : List Nat := List.range 64

/-- The slices. -/
def slices : List Nat := List.range 4

/-- Values `0..n−1` of BD in slice `q` written lane by lane, with the slice's flags (R217, R219). -/
def Block.vecN (b : Block) (q ty bd n : Nat) (f : Nat → Nat → LRes) : Block :=
  let res := (List.range n).map (fun v => lanes.map (f v))
  let e := (List.range n).foldl (fun e v => e.setValue q ty bd v ((res.getD v []).map (·.bits))) b.eng
  ({ b with eng := e }).noteFlags q (res.any (fun l => l.any (·.inv))) (res.any (fun l => l.any (·.ovf)))

/-- An elementwise instruction: every value of every lane of every slice, from the slice's own engine state (R168). -/
def Block.elementwise (b : Block) (ty bd : Nat) (f : Eng → Nat → Nat → Nat → LRes) : Block :=
  let e := b.eng
  b.each slices (fun b q => b.vecN q ty bd (valuesOf ty) (f e q))

/-- The active array count (R200). -/
def Block.arrays (b : Block) : Nat := b.fld ENG_STATUS_ARRAYS

/-- The tick length in ns (R173, R186, Table 6-15). -/
def Block.tickNs (b : Block) : Nat := [250, 400, 500, 800].getD (b.fld ENG_STATUS_TICKLEN) 250

/-- A scalar register of a slice, S13 to S15 as R173 gives them. -/
def Block.scalar (b : Block) (q i : Nat) : Nat :=
  let s (k : Nat) := b.eng.scal.get (fun _ => 0) (q * 16 + k)
  if i = 13 then (if b.arrays = 3 then s 9 else s 8)
  else if i = 14 then q
  else if i = 15 then b.tickNs
  else s i

/-- A scalar written: S13 to S15 hold no written value, and only INIT writes S8 to S12 (R173). -/
def Block.setScalar (b : Block) (q i v : Nat) : Block :=
  if i < 8 || (i < 13 && b.eng.run = .init) then
    b.modEng (fun e => { e with scal := e.scal.set (fun _ => 0) (q * 16 + i) (v % 2 ^ 32) })
  else b

/-! Memories (R171, Table 6-2). -/

/-- A word of a memory, by the number of Table 13-6. DESIGN CHOICE, log 16. -/
def Eng.word (e : Eng) (m w : Nat) : MWord :=
  (match m with
   | 0 => e.pm
   | 1 => e.sm
   | 2 => e.cm
   | 3 => e.tm
   | _ => e.wm).get (fun _ => 0) w

/-- A word of a memory written. -/
def Eng.setWord (e : Eng) (m w : Nat) (v : MWord) : Eng :=
  match m with
  | 0 => { e with pm := e.pm.set (fun _ => 0) w v }
  | 1 => { e with sm := e.sm.set (fun _ => 0) w v }
  | 2 => { e with cm := e.cm.set (fun _ => 0) w v }
  | 3 => { e with tm := e.tm.set (fun _ => 0) w v }
  | 4 => { e with wm := e.wm.set (fun _ => 0) w v }
  | _ => e

/-- The words of a quadrant's bank (R171). -/
def bankWords (m : Nat) : Nat := if m = 1 then 8192 else 16384

/-- Row `r` of quadrant `q`'s bank of memory `m`: nine words (R171). -/
def Eng.memRow (e : Eng) (m q r : Nat) : BRow :=
  (List.range 9).foldl (fun a j =>
    a ||| ((e.word m (q * bankWords m + 9 * r + j)).setWidth 1152 <<< (128 * j))) 0

/-- A row of a bank written. -/
def Eng.setMemRow (e : Eng) (m q r : Nat) (v : BRow) : Eng :=
  (List.range 9).foldl (fun e j =>
    e.setWord m (q * bankWords m + 9 * r + j) ((v >>> (128 * j)).setWidth 128)) e

/-- Value `j` of weight line `l` (R171). -/
def Eng.weight (e : Eng) (l j : Nat) : Nat :=
  let bit := 160 * l + 10 * j
  let lo := (e.word 4 (bit / 128)).toNat
  let hi := (e.word 4 (bit / 128 + 1)).toNat
  (lo + 2 ^ 128 * hi) / 2 ^ (bit % 128) % 1024



/-- One stall cycle of a collision on a memory's port (Table 6-10). -/
def Block.collide (b : Block) (m : Nat) : Block :=
  b.modEng (fun e => if e.run = .none then e else { e with stalls := e.stalls + 1 }.portStall m 1)

/-- A free spare row of a memory is taken: none when no row is free. MEM_SPARE_LOW is raised below a quarter (R396). -/
def Block.takeRow (b : Block) (m : Nat) : Option Block :=
  let left := b.fld FLT_ROWS_LEFT m
  if left = 0 then none
  else
    let b := (b.put FLT_ROWS_LEFT (left - 1) m).put FLT_ROWS_USED (b.fld FLT_ROWS_USED m + 1) m
    some (if 4 * (left - 1) < spareRows m then b.raise srcMEM_SPARE_LOW m else b)

/-- The failure of an array is entered in the wear log, once for each (R397). -/
def Block.logArray (b : Block) (q : Nat) : Block :=
  if b.img.wear.any (fun e => e.kind = 3 && e.elem = q) then b else b.logWear 3 q (some q)

/-- A corrected error of a word: counted; the second within 1 s makes the word due for a remap, or raises
MEM_SPARE_OUT when no spare row is free (R207, R394, R396). -/
def Block.corrected (b : Block) (m w : Nat) : Block :=
  let b := if m < 5 then b.incr ENG_ECC_CORR else b
  let again := match b.eng.corrAt.get (fun _ => none) (wordElem m w) with
    | some t => decide (b.now ≤ t + 1000000000)
    | none => false
  let x : MemWord := { mem := m, word := w }
  let b := b.modEng (fun e => { e with corrAt := e.corrAt.set (fun _ => none) (wordElem m w) (some b.now) })
  if !again || b.eng.remapDue.contains x || b.eng.copied.contains x then b
  else if b.fld FLT_ROWS_LEFT m = 0 then b.raise srcMEM_SPARE_OUT m
  else b.modEng (fun e => { e with remapDue := e.remapDue ++ [x] })

/-- An uncorrectable word: redirected at once to a zeroed spare row, or zeroed in place (R395, R396); reported as
ENG_MEM_UE when a tick read it, which is then marked for abort, and as MEM_UE otherwise (R170); in trace memory the
word's record is lost, and TRC_LOSS reported. -/
def Block.uncorrectable (b : Block) (m w : Nat) (byTick : Bool) : Block :=
  let b := if m < 5 then b.put ENG_ECC_UE_MEM (m + 1) else b
  let b := match b.takeRow m with
    | some b => b.redirect m w
    | none => b.raise srcMEM_SPARE_OUT m
  let b := b.modEng (fun e => e.setWord m w 0)
  if m = 5 then ({ b with trc := { b.trc.loseWord w with key := b.trc.key || b.trc.ring } } : Block).report srcTRC_LOSS 0
  else if byTick then (b.report srcENG_MEM_UE m).modEng (fun e => { e with ueMark := true })
  else b.raise srcMEM_UE m

/-- The errors met by a program's read of a memory (R170). -/
def Block.eccRead (b : Block) (m : Nat) (hits : List EccHit) : Block :=
  hits.foldl (fun b h => if h.ue then b.uncorrectable m h.word (b.eng.run = .tick) else b.corrected m h.word) b

/-- The stall cycles of the corrected words: two for each (R170). -/
def eccStall (hits : List EccHit) : Nat := 2 * (hits.filter (fun h => !h.ue)).length


end Sys2Proof.Machine
end

