-- ==== Sys2Proof/Machine/EngMemory.lean ====
section
/-! DEFINITION. The engine's loads and stores, the host window to its memories, the scrubber, and the halt (R170 to R172,
R197, R198, R394 to R396). -/

namespace Sys2Proof.Machine

/-- The row that format M addresses for row `j` of the block in slice `q`: S[SB] + OFS + j (R174). -/
def Block.rowAddr (b : Block) (q : Nat) (o : MOp) (j : Nat) : Nat := (b.scalar q o.sb + o.ofs + j) % 2 ^ 32

/-- The rows of a block that RM selects. -/
def rowsOf (rm : Nat) : List Nat := (List.range 4).filter (fun j => rm / 2 ^ j % 2 = 1)

/-- Rows of a block loaded from a memory, in every slice (R172). -/
def Block.loadRows (b : Block) (m : Nat) (o : MOp) : Block :=
  b.each slices (fun b q => b.each (rowsOf o.rm) (fun b j =>
    b.modEng (fun e => e.setRow q o.bd j (e.memRow m q (b.rowAddr q o j)))))

/-- LDS: current copies of persistent rows (R172). -/
def execLds (o : MOp) (ecc : List EccHit) (s : State) : Host.Outcome State Fault Refusal :=
  s.run (fun b => b.engine (.lds o ecc) (eccStall ecc) (fun b => (b.eccRead 1 ecc).loadRows 1 o))

/-- LDC (R171). -/
def execLdc (o : MOp) (ecc : List EccHit) (s : State) : Host.Outcome State Fault Refusal :=
  s.run (fun b => b.engine (.ldc o ecc) (eccStall ecc) (fun b => (b.eccRead 2 ecc).loadRows 2 o))

/-- The rows of a state memory bank (Table 6-2): 0..255 persistent. -/
def smRows : Nat := 654
def persistentRows : Nat := 256

/-- A row stored: the pending copy of a persistent row, or a scratch row at once (R172). -/
def Eng.storeRow (e : Eng) (q r : Nat) (v : BRow) : Eng :=
  if r < persistentRows then { e with smPend := e.smPend.set (fun _ => none) (q * 256 + r) (some v) }
  else if r < smRows then e.setMemRow 1 q r v
  else e

/-- STS (R172). -/
def execSts (o : MOp) (s : State) : Host.Outcome State Fault Refusal :=
  s.run (fun b => b.engine (.sts o) 0 (fun b =>
    b.each slices (fun b q => b.each (rowsOf o.rm) (fun b j =>
      b.modEng (fun e => e.storeRow q (b.rowAddr q o j) (e.row q o.bd j))))))

/-- The pending copies of persistent rows become current (R172). -/
def Eng.commitRows (e : Eng) : Eng :=
  let e' := e.smPend.foldl (fun e p => match p.2 with
    | some v => e.setMemRow 1 (p.1 / 256) (p.1 % 256) v
    | none => e) e
  { e' with smPend := [] }

/-- A word lies in a memory that the host window reaches (R198). -/
def hostWord (m w : Nat) : Bool := m < 5 && w < memWords m

/-- ENG_MEM_READ: a write of ENG_MADDR starts a read, or none when it names no word; the data then reads as zeros
(R198). While a read is in progress the spec says nothing of a write; it takes the read's place: DESIGN CHOICE, log 73. -/
def Block.memRead (b : Block) (data : Word) : Block :=
  let b := (b.put ENG_MADDR_MEM (Fld.get ENG_MADDR_MEM data)).put ENG_MADDR_WORD (Fld.get ENG_MADDR_WORD data)
  let m := b.fld ENG_MADDR_MEM
  let w := b.fld ENG_MADDR_WORD
  if hostWord m w then
    (b.put ENG_MADDR_BUSY 1).modEng (fun e => { e with mread := some { mem := m, word := w } })
  else
    let b := (b.put ENG_MADDR_BUSY 0).modEng (fun e => { e with mread := none, noWord := true })
    b.each (List.range 4) (fun b i => b.put ENG_MDATA_DATA 0 i)

/-- ENG_MEM_READ (R198). -/
def execEngMemRead (data : Word) (s : State) : Host.Outcome State Fault Refusal :=
  s.run (fun b => b.hostWrite ENG_MADDR_MEM.base data Block.memRead)

/-- ENG_MEM_READ_DONE: the corrected word reaches ENG_MDATA and BUSY clears. Errors met are counted as the host
window's; a collision takes one cycle of the port once in a tick (R198, R207, Table 6-10). -/
def Block.memReadDone (b : Block) (ecc : List EccHit) (collide : Bool) : Block :=
  match b.eng.mread with
  | none => b
  | some a =>
    let b := ecc.foldl (fun b h => if h.ue then b.uncorrectable a.mem h.word false else b.corrected a.mem h.word) b
    let b := if collide && !b.eng.hostHit.contains a.mem then
        (b.collide a.mem).modEng (fun e => { e with hostHit := a.mem :: e.hostHit }) else b
    let v := (b.eng.word a.mem a.word).toNat
    let b := b.each (List.range 4) (fun b i => b.put ENG_MDATA_DATA (v / 2 ^ (32 * i) % 2 ^ 32) i)
    (b.put ENG_MADDR_BUSY 0).modEng (fun e => { e with mread := none, noWord := false })

/-- ENG_MEM_READ_DONE (R198). -/
def execEngMemReadDone (ecc : List EccHit) (collide : Bool) (s : State) : Host.Outcome State Fault Refusal :=
  s.run (fun b => b.memReadDone ecc collide)

/-- A row with its word `j` replaced (R171). -/
def rowWith (row : BRow) (j : Nat) (v : MWord) : BRow :=
  (row &&& ~~~((BitVec.allOnes 128).setWidth 1152 <<< (128 * j))) ||| (v.setWidth 1152 <<< (128 * j))

/-- A word of state memory written in both copies of a persistent row: the current one, and the other where a store has written it
(R172, R198). -/
def Eng.setBoth (e : Eng) (w : Nat) (v : MWord) : Eng :=
  let o := w % bankWords 1
  let k := w / bankWords 1 * 256 + o / 9
  let pend := if o / 9 < persistentRows then (e.smPend.get (fun _ => none) k).map (fun row => rowWith row (o % 9) v) else none
  { e.setWord 1 w v with smPend := if pend.isSome then e.smPend.set (fun _ => none) k pend else e.smPend }

/-- ENG_MEM_WRITE: ENG_MDATA0..3 to a state memory word while HALTED or STOPPED, both copies of a persistent row;
otherwise refused (R198, R210). Words past row 653 of a bank, which physically hold the second copies, are plain words of the window,
of which the spec says nothing: DESIGN CHOICE, log 70. -/
def Block.memWrite (b : Block) (data : Word) : Block :=
  let b := b.put ENG_MDATA_DATA data.toNat 3
  let st := b.fld ENG_STATUS_STATE
  let m := b.fld ENG_MADDR_MEM
  let w := b.fld ENG_MADDR_WORD
  if (st = eHalted || st = eStopped) && m = 1 && hostWord m w then
    let v := (List.range 4).foldl (fun a i => a + b.fld ENG_MDATA_DATA i * 2 ^ (32 * i)) 0
    b.modEng (fun e => e.setBoth w (BitVec.ofNat 128 v))
  else b.report srcMWR_REFUSED 0

/-- ENG_MEM_WRITE (R198). -/
def execEngMemWrite (data : Word) (s : State) : Host.Outcome State Fault Refusal :=
  s.run (fun b => b.hostWrite (ENG_MDATA_DATA.base + 12) data Block.memWrite)

/-- ENG_HALT: the request, which the next boundary takes (R197). -/
def execEngHalt (t : Nat) (s : State) : Host.Outcome State Fault Refusal :=
  s.run (fun b => (b.at t).hostWrite ENG_CTL_HALT.base 1 (fun b d => b.put ENG_CTL_HALT (Fld.get ENG_CTL_HALT d)))

/-- ENG_RESUME: ticking resumes at a boundary (R197). -/
def execEngResume (t : Nat) (s : State) : Host.Outcome State Fault Refusal :=
  s.run (fun b => (b.at t).hostWrite ENG_CTL_HALT.base 0 (fun b d => b.put ENG_CTL_HALT (Fld.get ENG_CTL_HALT d)))

/-- TICKNO_LO_READ: the low half, with the high half latched for the next read of ENG_TICKNO_HI (R204). -/
def execTicknoLoRead (s : State) : Host.Outcome State Fault Refusal :=
  s.run (fun b =>
    let b := b.restartEvent
    { b with rdata := b.reg ENG_TICKNO_LO_VAL.base, tickHi := b.reg ENG_TICKNO_HI_VAL.base })

/-- SCRUB_ACCESS: an idle cycle of the port; a corrected word is written back and counted, an uncorrectable one is
redirected; a collision costs a program access one cycle, once per port in a tick (R170, R394, R395). -/
def Block.scrub (b : Block) (m : Nat) (hit : EccHit) (found collide : Bool) : Block :=
  if !(hit.word < memWords m) then b
  else
    let b := if collide && m < 5 && !b.eng.scrubHit.contains m then
        (b.collide m).modEng (fun e => { e with scrubHit := m :: e.scrubHit }) else b
    if !found then b
    else if hit.ue then
      b.uncorrectable m hit.word false
    else b.corrected m hit.word

/-- SCRUB_ACCESS (R170). -/
def execScrubAccess (t m : Nat) (hit : EccHit) (found collide : Bool) (s : State) : Host.Outcome State Fault Refusal :=
  s.run (fun b => (b.at t).scrub m hit found collide)

/-- SCRUB_REMAP: the corrected word is copied to a free spare row, and redirected at the next boundary, or at once while
the engine is stopped (R394). -/
def Block.scrubRemap (b : Block) (m w : Nat) : Block :=
  let x : MemWord := { mem := m, word := w }
  if !b.eng.remapDue.contains x then b
  else
    match b.takeRow m with
    | none => (b.raise srcMEM_SPARE_OUT m).modEng (fun e => { e with remapDue := e.remapDue.filter (· != x) })
    | some b =>
      let b := b.modEng (fun e => { e with remapDue := e.remapDue.filter (· != x), copied := e.copied ++ [x] })
      if b.fld ENG_STATUS_STATE = eRunning then b else b.redirect m w

/-- SCRUB_REMAP (R394). -/
def execScrubRemap (m w : Nat) (s : State) : Host.Outcome State Fault Refusal := s.run (fun b => b.scrubRemap m w)

end Sys2Proof.Machine
end

