-- ==== Sys2Proof/Machine/FastLoop.lean ====
section
/-! DEFINITION. The weave fast loop: one switching period of one weave (R64 to R84, R102 to R107, R516), the slots of its phases
(R72 to R74), droop pulses (R75), and the sense frame that carries a stage's result in Yalga-V (R69). Currents are in units of
1/131072 A. -/

namespace Sys2Proof.Machine

/-- The latest VIN reading of a quadrant's feed, 0.5 mV (Table 2-7): of its own converter, or the mean of the other
three where that is marked failed (R363). DEDUCED, log 40. -/
def Block.vin (b : Block) (q : Nat) : Nat :=
  if b.bit ADC_AUX_FAILED q then
    (rounded 41 (((((List.range 4).filter (· != q)).map (fun q => b.fld ADC_AUX_VALUE q)).sum : Nat) / (3 : Rat))).toNat
  else b.fld ADC_AUX_VALUE q

/-- Periods in 16 µs (Table 3-1). DESIGN CHOICE, log 18. -/
def Block.periods16 (b : Block) : Nat := if b.isV then 1600 else 2240

/-- The current of a code (R359); a phase marked WEAR_SENSE has its offset subtracted (R89). -/
def Block.currentOf (b : Block) (p code : Nat) : Int :=
  ((code : Int) - b.fld PH_CAL_ZERO_CODE p) * (b.P p).gainT - (if (b.P p).faults.getLsbD 6 then rounded 49 (b.P p).ofs else 0)

/-- The model current of a phase at a mean duty, in A (R83). The path resistance is in 1/16384 mΩ, voltages in 0.5 mV.
DEDUCED, log 40. -/
def iModel (duty : Rat) (vin vout : Nat) (rPath : Rat) : Rat :=
  (duty * vin - 256 * vout) * 32 / rPath

/-- A group's reference has settled: 0 REGION, 1 PHASE, 2 VINQ, 3 AUX (R354). -/
def Block.refSettled (b : Block) (g : Nat) : Bool := (BitVec.ofNat 4 (b.fld ADC_STATUS_REF_SETTLED)).getLsbD g

/-- A stage's result reaches the weave loop; while the PHASE group's reference is settling its code is that of the last settled one
(R354). -/
def Block.storeResult (b : Block) (p : Nat) (r : PhaseResult) : Block :=
  b.modP p (fun x => { x with res := some (if b.refSettled 1 then r else
    { r with code := match x.last with | some l => l.code | none => Config.unsettledCode p % 1024 }) })

/-- A current in units of 1/131072 A as an I16 with 12 fraction bits (R94); its rounding is not stated. -/
def report16 (site : Nat) (x : Rat) : Nat := unsigned 16 (clampI (-32768) 32767 (rounded site (x / 32)))

/-- The window code a region's loop takes: the converter's, or the substitute of R389 under WIN_FAIL. -/
def Block.windowCode (b : Block) (n code : Nat) : Nat :=
  if (b.R n).winFail then
    (clampI 0 63 (32 + nearest 1 ((b.fld REG_VSENSE_VOUT n : Int) - b.reference n) 6)).toNat
  else min code 63

/-- The region's voltage through its window converter: reference + (code − 32) × 3 mV (R362). -/
def Block.windowVolts (b : Block) (n : Nat) : Nat :=
  (clampI 0 4095 ((b.reference n : Int) + 6 * ((b.fld REG_VSENSE_WINDOW n : Int) - 32))).toNat

/-- From the first failing conversion to a stand-in, and without one, VOUT carries the window converter's voltage (R362). -/
def Block.windowSense (b : Block) (n : Nat) : Block :=
  if (b.R n).convRun = 0 && !(b.R n).convBad then b
  else (b.put REG_VSENSE_VOUT (b.windowVolts n) n).modR n (fun r => { r with remote := b.windowVolts n })

/-- APPLIED steps one VCODE toward its goal when the accumulated rate asks for it (R107). DEDUCED, log 19. -/
def Block.slewStep (b : Block) (n : Nat) : Block :=
  match b.goal n with
  | none => b
  | some (v, rate) =>
    let a := b.fld REG_VSET_APPLIED n
    let due := if b.isV then 100 else 140
    if a = v then b.modR n (fun r => { r with slewAcc := 0 })
    else
      let b := b.deferProbe n
      let acc := (b.R n).slewAcc + 2 * rate
      if acc < due then b.modR n (fun r => { r with slewAcc := acc })
      else (b.put REG_VSET_APPLIED (if a < v then a + 1 else a - 1) n).modR n (fun r => { r with slewAcc := acc - due })

/-- The slow limit of a phase of region `n`: 3.1 A, folding back below 85 % of the set-point (R78). -/
def Block.slowLimit (b : Block) (n : Nat) : Rat :=
  let vout : Rat := b.fld REG_VSENSE_VOUT n
  let vset : Rat := b.fld REG_VSET_APPLIED n
  if vout * 100 ≥ 85 * vset then 31 / 10 * 131072
  else 31 / 10 * 131072 * max (3 / 10) (vout / vset)

/-- The 16 µs average of a phase's period-average current (R78). DESIGN CHOICE, log 18. -/
def Block.avg16 (b : Block) (p : Nat) : Rat :=
  ((b.P p).hist.foldl (· + ·) 0 : Int) / (b.periods16 : Nat)

/-- The region whose mesh a phase feeds: that of the position it serves, or that of the swap-in that runs on it (R78, R86). -/
def Block.feeds (b : Block) (p : Nat) : Option Nat :=
  match b.regionOfPhase p with
  | some n => some n
  | none =>
    let w := weaveOfPhase p
    if (b.W w).spare = p then (b.swapTarget w).map (· / 4) else none

/-- A phase's result of the period is taken: sample, average, FL, OT and missing counts (R69, R77, R78, R80). A BLIND phase
reports the model current (R94). In the two periods whose results carry a reply to a gain read the last result stands, and no test
counts (R360). DESIGN CHOICE, log 10. -/
def Block.takeResult (b : Block) (p : Nat) : Block :=
  let b := if (b.P p).replies > 0 then b.modP p (fun x => { x with res := x.last }) else b
  let x := b.P p
  let duty := x.duty
  let q := (weaveOfPhase p) / 4
  let vout := match b.feeds p with
    | some n => b.fld REG_VSENSE_VOUT n
    | none => 0
  let blind := b.cond p = cBlind
  let sensed : Int := match x.res with
    | some r => b.currentOf p r.code - Config.ripple x.sentEvent x.sentDelay duty (b.vin q) vout
    | none => Config.missedAverage (x.hist.headD 0)
  let avg : Int := if blind then rounded 2 (131072 * iModel duty (b.vin q) vout x.rPath) else sensed
  let tested : Bool × Bool := match x.res with
    | some r =>
      let predicted := 131072 * iModel duty (b.vin q) vout x.rPath
        + Config.ripple x.sentEvent x.sentDelay duty (b.vin q) vout
      (predicted ≥ 4 / 10 * 131072, decide ((b.currentOf p r.code).natAbs * 100 ≤ 8 * 131072))
    | none => (false, false)
  let fl := match x.res with | some r => r.fl || x.flTrip | none => false
  let ot := match x.res with | some r => r.ot | none => false
  let b := b.modP p (fun x => { x with
    res := none
    flTrip := false
    last := x.res <|> x.last
    hist := (avg :: x.hist).take b.periods16
    flRun := if fl then x.flRun + 1 else 0
    otRun := if ot then x.otRun + 1 else 0
    otAt := if ot then some b.now else x.otAt
    openRun := if x.replies > 0 then x.openRun else if tested.1 && tested.2 then x.openRun + 1 else 0
    missRun := if x.replies > 0 then x.missRun else if x.res.isNone then x.missRun + 1 else 0
    replies := x.replies - 1
    dutySum := x.dutySum + duty
    dutyN := x.dutyN + 1 })
  let b := b.put PH_CURRENT_LAST (report16 3 avg) p
  b.put PH_CURRENT_AVG16 (report16 4 (if blind then avg else b.avg16 p)) p

/-- The phases of region `n` that the weave loop switches: SWITCHING or BLIND, and a spare in CAL_PULSE, which goes on at its equal
share while it waits in MAP_WAIT (R72, R399). -/
def Block.switching (b : Block) (n : Nat) : List Nat :=
  let w := weaveOf n
  let cal := match b.swapTarget w with
    | some l => if l / 4 = n && [4, 5].contains (b.fld WV_SWAP_STAGE w) && b.cond (b.W w).spare = cCalibrating then [(b.W w).spare] else []
    | none => []
  (b.mapped n).filter (fun p => b.cond p = cSwitching || b.cond p = cBlind) ++ cal

/-- The width of a weave's droop pulse in fine steps (R66). -/
def Block.pulseWidth (b : Block) (w : Nat) : Nat := 8 * (b.efld WV_PLAIT_DPW w + 1)

/-- The on-time of a phase's running period, in fine steps: the loop's and the droop pulses' together, of which a trip of the fast
limit or the end of its drive leaves a part (R15, R66, R76). -/
def Block.onTime (b : Block) (p : Nat) : Nat :=
  let x := b.P p
  let w := b.pulseWidth (weaveOfPhase p)
  let whole := if x.pulses = 0 then x.duty
    else clampN (max x.duty w) (min 511 (x.duty + x.pulses * w)) (Config.pulseOnTime x.duty w x.pulses)
  if x.cut then min whole (Config.cutOnTime whole) else whole

/-- The separate on-times of a phase's running period (R66). -/
def Block.onTimes (b : Block) (p : Nat) : Nat :=
  let x := b.P p
  let most := x.pulses + (if x.duty = 0 then 0 else 1)
  clampN (min 1 most) most (Config.onTimes x.duty (b.pulseWidth (weaveOfPhase p)) x.pulses)

/-- A phase's period ends: its duty code and its times are those of the last complete period, with dead time at both edges of every
on-time (R65, R93). -/
def Block.endPeriod (b : Block) (p : Nat) : Block :=
  let on := b.onTime p
  let dead := 2 * b.fld PH_CAL_DEADTIME p * b.onTimes p
  (b.put PH_STATE_DUTY (b.P p).duty p).modP p (fun x => { x with onLast := on, deadLast := dead, drove := x.drove && x.drive != .off })

/-- The period's share of a region's measured power: VIN × on-time × current of every phase that is SWITCHING or BLIND for it, and
of a spare in CAL_PULSE (R268). -/
def Block.measurePower (b : Block) (n : Nat) : Block :=
  let sum : Int := ((b.switching n).map (fun p => ((b.P p).onLast : Int) * (b.P p).hist.headD 0)).foldl (· + ·) 0
  b.modR n (fun r => { r with pmSum := r.pmSum + b.vin (quadOf n) * sum, pmN := r.pmN + 1 })

/-- Every position of a weave in service whose stage reported OT in two periods running enters SAFE, switching or not (Table 3-6). -/
def Block.overTemps (b : Block) (w : Nat) : Block :=
  b.each (phasesOf w) (fun b p =>
    if b.inService p && b.cond p != cSafe && (b.P p).otRun ≥ 2 then b.phaseFault p srcSTAGE_OT else b)

/-- The phase faults that a period's counts show (R77, R516, Table 3-6). -/
def Block.periodFaults (b : Block) (n : Nat) : Block :=
  let sw := (b.mapped n).filter (fun p => b.cond p = cSwitching || b.cond p = cBlind)
  let b :=
    if !sw.isEmpty && sw.all (fun p => (b.P p).flRun ≥ 8) then b.classS srcSHORT n
    else b.each sw (fun b p => if (b.P p).flRun ≥ 8 then b.phaseFault p srcFAIL_SHORT else b)
  b.each sw (fun b p =>
    if b.cond p = cSafe then b
    else if b.cond p = cSwitching && (b.P p).openRun ≥ 4 then b.phaseFault p srcFAIL_OPEN
    else if b.cond p = cSwitching && (b.P p).missRun ≥ 4 then b.phaseFault p srcSENSE_FAIL
    else b)

/-- The feed-forward duty of a region: 256 × reference / VIN, rounded (R104). DESIGN CHOICE, log 10. -/
def Block.dff (b : Block) (n : Nat) : Int :=
  let v := b.vin (quadOf n)
  if v = 0 then Config.dffNoVin (b.reference n) else nearest 5 (256 * b.reference n) v

/-- The greatest duty of a BLIND phase: the model current stays at or below 1.5 A (R84). -/
def Block.blindCap (b : Block) (n p : Nat) : Nat :=
  let v := b.vin (quadOf n)
  if v = 0 then 0 else (((16384 * b.fld REG_VSENSE_VOUT n : Nat) + 3 * (b.P p).rPath) / (64 * v : Nat)).floor.toNat

/-- A duty code the loop may command: 0, or 8..224 (R65). -/
def legalDuty (d : Nat) : Nat := if d < 8 then 0 else min d 224

/-- One phase's duty of the period, after the slow limit, the BLIND cap, the CAL_PULSE ramp and the inrush budget; and
whether the slow limit holds it (R78, R84, R104, R153). DESIGN CHOICE, log 10. -/
def Block.phaseDuty (b : Block) (n p : Nat) (u : Int) (w : Nat) (anyHeld : Bool) : Nat × Bool :=
  let r := b.R n
  let d := u + (b.P p).trim + r.loss
  let base : Nat := if w = 63 || d < 4 then 0 else (clampI 8 224 d).toNat
  let lim := b.slowLimit n
  let avg := b.avg16 p
  let held := decide (avg > lim)
  let d1 := if held then min base (Config.slowDuty base (rounded 6 avg) (rounded 7 lim))
            else if anyHeld && base > 0 then base + Config.slowShift base (rounded 6 avg) (rounded 7 lim) else base
  let d2 := if b.cond p = cBlind then min d1 (b.blindCap n p) else d1
  let d3 := if b.cond p = cCalibrating then d2 * (b.W (weaveOf n)).ramp / 400 else d2
  let total : Int := ((b.switching n).map (fun q => (b.P q).hist.headD 0)).foldl (· + ·) 0
  let stageA := let v := b.efld WV_DAWN_STAGE_A (weaveOf n); if v = 0 then 1 else v
  let budget : Int := (stageA : Int) * 32768
  let d4 := if r.budget && total > budget then ((d3 : Int) * budget / total).toNat else d3
  (legalDuty d4, held)

/-- One region's period: window code, set-point step, the control law, and the duty of every switching phase (R103 to
R107, R148). DEDUCED, log 19. -/
def Block.regionPeriod (b : Block) (n code : Nat) : Block :=
  let wv := weaveOf n
  let b := ((b.noteRef n).slewStep n).finishDescent n
  let w := b.windowCode n code
  let b := (b.put REG_VSENSE_WINDOW w n).windowSense n
  let b := if b.st n = sSoftstart && (b.R n).ssAt.isNone && b.fld REG_VSET_APPLIED n = b.runTarget0 n
    then b.modR n (fun r => { r with ssAt := some b.now }) else b
  let r := b.R n
  let skip := b.st n = sNap
  let e : Int := 3 * ((w : Int) - 32)
  let integ := if r.froze || skip then r.integ
    else clampI (-64) 64 (r.integ - ((b.efld WV_COMP_KI wv : Int) * e).tdiv 256)
  let u := b.dff n - ((b.efld WV_COMP_KP wv : Int) * e).tdiv 16
    - ((b.efld WV_COMP_KD wv : Int) * (e - r.ePrev)).tdiv 16 + integ
  let sw := b.switching n
  let lim := b.slowLimit n
  let anyHeld := sw.any (fun p => decide (b.avg16 p > lim))
  let ds := sw.map (fun p =>
    let d := b.phaseDuty n p u w anyHeld
    (p, if skip && w > 30 then 0 else d.1, d.2))
  let b := ds.foldl (fun b d => b.modP d.1 (fun x => { x with duty := d.2.1, flHold := x.flHold && d.2.1 = 0 })) b
  b.modR n (fun r => { r with
    integ := integ
    ePrev := e
    froze := ds.any (fun d => d.2.1 = 0 || d.2.1 = 224 || d.2.2)
    epMin := if r.episode then min r.epMin w else r.epMin
    tickMin := if r.episode then min r.tickMin w else r.tickMin })

/-- The slot offset of rank `j` among `count` ranked phases of a region, in fine steps (R72). -/
def slotOffset (n j count : Nat) : Nat := (16 * (n % 16) + weaveOf n + 256 * j / count) % 256

/-- The ranked phases of active index `k` of a region: the one that serves it, and the spare in CAL_PULSE that is about to, in that
order (R72). DESIGN CHOICE, log 64. -/
def Block.rankedAt (b : Block) (n k : Nat) : List Nat := (b.switching n).filter (fun p =>
  if b.cond p = cCalibrating then b.swapTarget (weaveOf n) = some (4 * n + k) else b.logical p = 4 * n + k)

/-- The ranked phases of a region by rank: in cyclic order of their index from B[n] (R72). -/
def Block.ranked (b : Block) (n : Nat) : List Nat :=
  ((List.range 4).map (fun i => ((b.R n).baseK + i) % 4)).flatMap (b.rankedAt n)

/-- Every ranked phase of a region takes the slot of its rank; a new offset delays the start of the phase's period and never
shortens one (R72, R73). -/
def Block.placeSlots (b : Block) (n : Nat) : Block :=
  let ps := b.ranked n
  b.each (List.range ps.length) (fun b j =>
    let new := slotOffset n j ps.length
    b.modP (ps.getD j 0) (fun x => { x with offset := new, delay := (new + 256 - x.offset) % 256 }))

/-- A phase's next period starts: nothing has reached its stage in it yet, and without the weave loop's drive its duty is 0. The
period before lasted until now, with the low side on outside the on-time and its dead time (R64, R73). In Yalga-P a written sampling
point takes effect (R357). -/
def Block.startPeriod (b : Block) (p : Nat) : Block :=
  b.modP p (fun x =>
    let loop := x.drive = .loop
    let take := x.trigDue && !b.isV
    { x with pulses := 0, cut := false, duty := if loop then x.duty else 0, delay := if loop then x.delay else 0
             lowLast := if x.drove then 256 + (if loop then x.delay else 0) - x.onLast - x.deadLast else 0
             drove := loop
             trigDue := x.trigDue && !take
             trigEvent := if take then b.fld ADC_PHTRIG_EVENT else x.trigEvent
             trigDelay := if take then b.fld ADC_PHTRIG_DELAY else x.trigDelay
             sentEvent := if take then b.fld ADC_PHTRIG_EVENT else x.sentEvent
             sentDelay := if take then b.fld ADC_PHTRIG_DELAY else x.sentDelay })

/-- A period of CAL_PULSE: the share's ramp goes on, and outside droop episodes the spare's current is kept for the check (R86,
Tables 3-7, 3-8). -/
def Block.calPeriod (b : Block) (w : Nat) : Block :=
  match (b.W w).run with
  | some s =>
    if b.fld WV_SWAP_STAGE w != 4 then b
    else
      let x := b.P (b.W w).spare
      let sample := (x.hist.headD 0, x.duty)
      b.modW w (fun v => { v with
        ramp := min (v.ramp + 1) 400, calFl := v.calFl || decide (x.flRun > 0)
        calLog := if (b.R (s.lpos / 4)).episode then v.calLog else (sample :: v.calLog).take 100 })
  | none => b

/-- The steering command of a swap-in goes to its spare with both switches off and ZC set, and so does that which opens the switch
of a spare that a swap-in has left (R71, R87). -/
def Block.sendSteer (b : Block) (w : Nat) : Block :=
  let sp := (b.W w).spare
  let b := b.each (sparesOf w) Block.sendOpen
  match (b.W w).run with
  | some s =>
    if b.fld WV_SWAP_STAGE w = 1 && (b.P sp).steerCmd.isEmpty && b.stageIdle sp then
      b.modP sp (fun x => { x with steerCmd := steerPulses (steerSymbols true (s.lpos / 4)) })
    else b
  | none => b

/-- One switching period of weave `w`: the period that ends is judged, sheds and each region's law take effect, and the phases take
their slots (R16, R72, R104, R153). While a loss of the active phase loop holds its forcing the weave loops are frozen (Table 11-3).
A shed committed before a droop episode began takes effect although the episode is in progress by then, of which R16 and R17 say
nothing: DESIGN CHOICE, log 77. -/
def Block.fastLoop (b : Block) (w : Nat) (windows : List Nat) (results : List PhaseResult) : Block :=
  if b.clk.forcing then b
  else
    let live := (phasesOf w).filter b.inService
    let b := if b.isV then b else
      results.foldl (fun b r => if live.contains r.p then b.storeResult r.p r else b) b
    let b := b.nextClosing w
    let anyFl := live.any (fun p => match (b.P p).res with | some r => r.fl || (b.P p).flTrip | none => false)
    let b := (b.each live Block.takeResult).each (phasesOf w) Block.endPeriod
    let b := ((b.each (regionsOf w) Block.measurePower).calPeriod w).sendSteer w
    let b := if anyFl then b.incr WV_LIMCNT_FAST w else b
    let b := b.each live (fun b p => if (b.P p).shedDue then b.park p else b)
    let b := (b.overTemps w).each (regionsOf w) Block.periodFaults
    let held := (regionsOf w).any (fun n => (b.switching n).any (fun p => decide (b.avg16 p > b.slowLimit n)))
    let b := if held then b.incr WV_LIMCNT_SLOW w else b
    let b := b.each (List.range 16) (fun b i => b.regionPeriod (16 * w + i) (windows.getD i 32))
    let b := (b.each (regionsOf w) Block.placeSlots).each (phasesOf w) Block.startPeriod
    (b.modW w (fun x => { x with periods := x.periods + 1 })).auxEvents w

/-- FAST_LOOP_PERIOD (R104). -/
def execFastLoopPeriod (t w : Nat) (windows : List Nat) (results : List PhaseResult) (s : State) :
    Host.Outcome State Fault Refusal :=
  s.run (fun b => if w < 16 then (b.at t).fastLoop w windows results else b)

/-- Even parity over the bits [15:1] of a sense frame, held in bit 0 (Table 3-3). -/
def frameParityOk (f : BitVec 16) : Bool :=
  ((List.range 16).foldl (fun p i => p ^^ f.getLsbD i) false) == false

/-- A sense frame's fields (Table 3-3). -/
def frameResult (p : Nat) (f : BitVec 16) : PhaseResult :=
  { p := p, code := f.toNat / 32 % 1024, fl := f.getLsbD 4, zc := f.getLsbD 3, ot := f.getLsbD 2, sack := f.getLsbD 1 }

/-- Both switches of a phase in SAFE go off (R80). -/
def Block.safeOff (b : Block) (p : Nat) : Block :=
  if b.cond p = cSafe then b.modP p (fun x => { x with drive := .off }) else b

/-- A Yalga-V sense frame: discarded and counted when its start bit or parity is wrong, else the period's result; with
ZC set it ends the low-side time of a phase in SAFE (R69, R80). -/
def Block.senseFrame (b : Block) (p : Nat) (f : BitVec 16) : Block :=
  if !b.isV || !b.populated p then b
  else if !f.getLsbD 15 || !frameParityOk f then b.incr WV_LIMCNT_FRAME_ERR (weaveOfPhase p)
  else
    let r := frameResult p f
    let b := b.storeResult p r
    if r.zc then b.safeOff p else b

/-- SENSE_FRAME (R69). -/
def execSenseFrame (p : Nat) (f : BitVec 16) (s : State) : Host.Outcome State Fault Refusal :=
  s.run (fun b => b.senseFrame p f)

/-- FAST_LIMIT_TRIP: the high side turns off until the next on-time of the weave loop, and FL is set for the period
(R76). -/
def execFastLimitTrip (p : Nat) (s : State) : Host.Outcome State Fault Refusal :=
  s.run (fun b =>
    if b.populated p && b.cond p != cSafe && b.cond p != cRetired then
      b.modP p (fun x => { x with flHold := true, flTrip := true, cut := true })
    else b)

/-- SAFE_ZERO_CROSS (R80). -/
def execSafeZeroCross (p : Nat) (s : State) : Host.Outcome State Fault Refusal := s.run (fun b => b.safeOff p)

/-- SAFE_LOW_SIDE_TIMEOUT (R80). -/
def execSafeLowSideTimeout (p : Nat) (s : State) : Host.Outcome State Fault Refusal := s.run (fun b => b.safeOff p)

/-- B[n] moves to the index of the previous ranked phase in cyclic order (R74). DEDUCED, log 19. -/
def Block.rotate (b : Block) (n : Nat) : Block :=
  let back := (List.range 4).map (fun i => ((b.R n).baseK + 3 - i) % 4)
  b.modR n (fun r => { r with baseK := (back.find? (fun k => !(b.rankedAt n k).isEmpty)).getD r.baseK, rotDue := false })

/-- The switching periods between two plait rotations of a weave (R74). -/
def Block.rotation (b : Block) (w : Nat) : Nat := 2 ^ (b.efld WV_PLAIT_ROT_LOG2 w + 4)

/-- A plait rotation that has fallen due: each region's base index moves; during a droop episode it is deferred to the episode's
end (R74). Several that fall due in one episode are one at its end, of which R74 says nothing: DESIGN CHOICE, log 77. -/
def Block.plaitRotation (b : Block) (w : Nat) : Block :=
  if (b.W w).periods < b.rotation w then b
  else (b.modW w (fun x => { x with periods := 0 })).each (regionsOf w) (fun b n =>
    if (b.R n).episode then b.modR n (fun r => { r with rotDue := true }) else b.rotate n)

/-- PLAIT_ROTATION (R74). -/
def execPlaitRotation (w : Nat) (s : State) : Host.Outcome State Fault Refusal :=
  s.run (fun b => if w < 16 then b.plaitRotation w else b)

/-- The phases available to the droop path of a region, in cyclic order of their index from `start` (R14, R75). -/
def Block.available (b : Block) (n start : Nat) : List Nat :=
  ((List.range 4).map (fun i => (start + i) % 4)).filterMap (fun k =>
    match b.serving (4 * n + k) with
    | some p => if [cSwitching, cParked, cBlind].contains (b.cond p) then some p else none
    | none => none)

/-- A round of droop pulses: one into every available phase of the region in cyclic order from the episode's lead. A stage whose
fast limit holds its high side off suppresses its pulse (R66, R75, R76). -/
def Block.firePulses (b : Block) (n : Nat) : Block :=
  let ps := b.available n (b.R n).epLead
  let b := b.each ps (fun b p => b.modP p (fun x => { x with pulses := if x.flHold then x.pulses else x.pulses + 1 }))
  b.modR n (fun r => { r with fired := ps })

end Sys2Proof.Machine
end

