-- ==== Sys2Proof/Machine/Swap.lean ====
section
/-! DEFINITION. Spare swap-in: the stages of Table 3-7, the calibration checks of Table 3-8, the mapping boundary and
the host's request (R85 to R91). -/

namespace Sys2Proof.Machine

/-- The stage codes of Table 3-7. -/
def stIdle : Nat := 0
def stSelect : Nat := 1
def stCalZero : Nat := 2
def stCalDelay : Nat := 3
def stCalPulse : Nat := 4
def stMapWait : Nat := 5

/-- A queued swap-in whose region does not make it wait (R87). -/
def Block.eligible (b : Block) (s : Swap) : Bool :=
  !s.waiting && !([sDark, sFaulted, sSoftstart].contains (b.st (s.lpos / 4)))

/-- A swap-in begins at SELECT with an idle spare, which is set to CALIBRATING and sent its steering command once its current is
zero; in Yalga-V its sampling point is sent to it as well (R71, R85, R357, Table 3-7). -/
def Block.select (b : Block) (w : Nat) (s : Swap) (sp : Nat) : Block :=
  b.withPools (fun b =>
    let b := b.modW w (fun x => { x with run := some s, spare := sp, startedAt := b.now, ramp := 0, calLog := [], calFl := false })
    let b := (b.setCond sp cCalibrating).modP sp (fun x => { x with steerCmd := [], openDue := false, trigDue := b.isV })
    ((b.put WV_SWAP_STAGE stSelect w).notePend).sendSteer w)

/-- A queued swap-in starts when an idle spare exists, with the lowest-numbered one (R85). -/
def Block.startSwap (b : Block) (w : Nat) : Block :=
  if (b.W w).run.isSome then b
  else
    match (b.W w).queue.find? b.eligible, (b.idleSpares w).head? with
    | some s, some sp => (b.modW w (fun x => { x with queue := x.queue.filter (fun e => e != s) })).select w s sp
    | _, _ => b

/-- A failing calibration check: the spare goes to SAFE with fault CAL_FAIL, and the same swap-in restarts at SELECT with
the next idle spare; with none it goes back to its place in the queue (R85, R87). -/
def Block.calFail (b : Block) (w : Nat) : Block :=
  let sp := (b.W w).spare
  let b := (b.put PH_STATE_FAULT 7 sp).modP sp (fun x => { x with faults := x.faults ||| (1#16 <<< 7) })
  let b := ((b.enterSafe sp).steerOpen sp).raise srcCAL_FAIL sp
  match (b.W w).run, (b.idleSpares w).head? with
  | some s, some next => b.select w s next
  | _, _ => (b.requeue w false).raise srcPOOL_EMPTY w

/-- A stage of the running swap-in ends: its check passes and the next stage begins, in CAL_PULSE with the spare switched by the
weave loop (R64, Table 3-7), or CAL_FAIL. DEDUCED, log 19. -/
def Block.stageEnd (b : Block) (w stage : Nat) (ok : Bool) (next : Nat) : Block :=
  if (b.W w).run.isSome && b.fld WV_SWAP_STAGE w = stage then
    if ok then
      let b := b.put WV_SWAP_STAGE next w
      if next = stCalPulse then b.modP (b.W w).spare (fun x => { x with drive := if b.forcedAll then x.drive else .loop }) else b
    else b.calFail w
  else b

/-- The spare of the running swap-in reports a current of zero (Table 3-7). -/
def Block.spareZero (b : Block) (w : Nat) : Bool :=
  match (b.P (b.W w).spare).last with
  | some r => r.zc
  | none => false

/-- SWAPIN_START (R85). -/
def execSwapinStart (t w : Nat) (s : State) : Host.Outcome State Fault Refusal :=
  s.run (fun b => if w < 16 then (b.at t).startSwap w else b)

/-- The switch of spare `p` as the stage has read its command: closed to a region of the weave, or open (R71). -/
def Block.steerTo (b : Block) (w p : Nat) (symbols : BitVec 6) : Block :=
  b.modP p (fun x => { x with steer := if symbols.getLsbD 5 then some (16 * w + symbols.toNat / 2 % 16) else none })

/-- The lowest-numbered spare of a weave to which a command that opens its switch has been sent (R71, R87). -/
def Block.opening (b : Block) (w : Nat) : Option Nat :=
  (sparesOf w).find? (fun p => (b.P p).openDue && !(b.P p).steerCmd.isEmpty)

/-- The stage of a weave's spare has read a steering command as `symbols`, moves its switch and reports SACK; one that reads bad
parity ignores the command. A command to open is that of a spare whose switch is to open; any other is the running swap-in's, and
ends SELECT when it was read as sent (R71, R87). -/
def Block.sackReceived (b : Block) (w : Nat) (symbols : BitVec 6) : Block :=
  if !steerParityOk symbols then b
  else match (if symbols.getLsbD 5 then none else b.opening w) with
    | some p => (b.steerTo w p symbols).modP p (fun x => { x with openDue := false })
    | none =>
      let sp := (b.W w).spare
      if (b.W w).run.isNone || b.fld WV_SWAP_STAGE w != stSelect || (b.P sp).steerCmd.isEmpty then b
      else
        let b := b.steerTo w sp symbols
        if (b.P sp).steerCmd = steerPulses symbols then b.stageEnd w stSelect true stCalZero else b

/-- SACK_RECEIVED (R71, Table 3-7). DESIGN CHOICE, log 4. -/
def execSackReceived (w : Nat) (symbols : BitVec 6) (s : State) : Host.Outcome State Fault Refusal :=
  s.run (fun b => if w < 16 then b.sackReceived w symbols else b)

/-- SWAPIN_SACK_TIMEOUT (R85, Table 3-8). -/
def execSwapinSackTimeout (t w : Nat) (s : State) : Host.Outcome State Fault Refusal :=
  s.run (fun b => if w < 16 then (b.at t).stageEnd w stSelect false stCalZero else b)

/-- CAL_ZERO_DONE: with the current confirmed zero, the mean zero code is kept, and must lie within 40 codes of the test record
(Tables 3-7, 3-8). -/
def execCalZeroDone (t w mean : Nat) (s : State) : Host.Outcome State Fault Refusal :=
  s.run (fun b =>
    let b := b.at t
    if w < 16 && b.spareZero w then
      let sp := (b.W w).spare
      let ok := decide (((mean : Int) - (b.P sp).zeroTest).natAbs ≤ 40)
      let b := if (b.W w).run.isSome && b.fld WV_SWAP_STAGE w = stCalZero then b.put PH_CAL_ZERO_CODE mean sp else b
      b.stageEnd w stCalZero ok (if b.isV then stCalDelay else stCalPulse)
    else b)

/-- The round trip that the limits of R70 imply: 1.0 ns down and at most 1.3 ns up, in fine steps of 39.0625 ps.
DEDUCED, log 19. -/
def roundTripOk (fine : Nat) : Bool := fine * 390625 ≤ 23000000

/-- CAL_DELAY_DONE (R70, R85, R96, Table 3-8). -/
def execCalDelayDone (t w roundTrip deadTime : Nat) (s : State) : Host.Outcome State Fault Refusal :=
  s.run (fun b => if w < 16 then
      let b := b.at t
      let sp := (b.W w).spare
      let b := if (b.W w).run.isSome && b.fld WV_SWAP_STAGE w = stCalDelay then
        (b.put PH_CAL_CHAN_DLY (min roundTrip 255) sp).put PH_CAL_DEADTIME (clampN 1 15 deadTime) sp else b
      b.stageEnd w stCalDelay (roundTripOk roundTrip) stCalPulse
    else b)

/-- The check of CAL_PULSE: over its last 100 periods outside droop episodes the mean sensed current lies within 20 % of the
model's at the mean duty, and no period of the stage reported FL (R83, R86, Table 3-8). DEDUCED, log 19. -/
def Block.calPulseOk (b : Block) (w n : Nat) : Bool :=
  let x := b.W w
  let sensed : Rat := ((x.calLog.map (·.1)).sum : Int) / (131072 * x.calLog.length : Nat)
  let duty : Rat := ((x.calLog.map (·.2)).sum : Nat) / (x.calLog.length : Nat)
  let model := iModel duty (b.vin (quadOf n)) (b.fld REG_VSENSE_VOUT n) (b.P x.spare).rPath
  !x.calFl && decide ((sensed - model) * 5 ≤ max model (-model) ∧ (model - sensed) * 5 ≤ max model (-model))

/-- CAL_PULSE_DONE: the share's ramp has run its 400 periods and 100 samples stand, and the check is made (Tables 3-7, 3-8). -/
def execCalPulseDone (t w : Nat) (s : State) : Host.Outcome State Fault Refusal :=
  s.run (fun b =>
    let b := b.at t
    match b.swapTarget w with
    | some l =>
      if w < 16 && (b.W w).ramp = 400 && (b.W w).calLog.length = 100 then b.stageEnd w stCalPulse (b.calPulseOk w (l / 4)) stMapWait
      else b
    | none => b)

/-- The condition of a position in its region's state, by the engine's decision for it (R86, Table 5-1). -/
def Block.positionCond (b : Block) (l p : Nat) : Nat :=
  let n := l / 4
  let st := b.st n
  let on :=
    if st = sRun || st = sLeaving then (b.R n).adds.getLsbD (l % 4)
    else st = sDawn || st = sDusk || st = sWaking
  if on then b.onCond p else cParked

/-- The mapping boundary: the spare takes the logical position, and the phase it replaces leaves it (R86, R89, R90), with a shed that
waits for the worn phase's next switching period (R16). A swap-in waits while every phase is held in SAFE (R333). -/
def Block.mapSwap (b : Block) (w : Nat) : Block :=
  match (b.W w).run with
  | none => b
  | some s =>
    if b.fld WV_SWAP_STAGE w != stMapWait || b.forcedAll then b
    else
      let sp := (b.W w).spare
      let old := b.serving s.lpos
      let cond := match old with
        | some p => if s.planned && [cSwitching, cParked].contains (b.cond p) then b.cond p else b.positionCond s.lpos sp
        | none => b.positionCond s.lpos sp
      let trim := match old with | some p => (b.P p).trim | none => 0
      let shed := match old with | some p => s.planned && (b.P p).shedDue | none => false
      let b := match old with
        | none => b
        | some p =>
          let safe := b.cond p = cSafe
          let b := if safe then b else b.setCond p cRetired
          let b := (b.put PH_STATE_LOGICAL noLogical p).modP p (fun x => { x with replaced := true })
          b.logWear 0 p none
      let b := (b.put PH_STATE_LOGICAL s.lpos sp).setCond sp cond
      let b := b.modP sp (fun x => { x with trim := trim, shedDue := shed })
      let b := (b.logWear 0 sp (some s.lpos)).incrSat WV_SWAP_COUNT w
      b.endSwap w

/-- The swap-ins of regions that are no longer dark or in mesh soft start run again (R87). -/
def Block.resumeSwaps (b : Block) (w : Nat) : Block :=
  b.modW w (fun x => { x with queue := x.queue.map (fun e =>
    if [sDark, sFaulted, sSoftstart].contains (b.st (e.lpos / 4)) then e else { e with waiting := false }) })

/-- The word of a write restricted to the bits a register lets the host set; W1C and WO bits are not stored. -/
def Block.storeWritable (b : Block) (a : Nat) (data : Word) : Block :=
  match findReg a with
  | none => b
  | some d => b.setReg a ((b.reg a &&& ~~~(d.rw ||| d.rws)) ||| (data &&& (d.rw ||| d.rws)))

/-- SWAP_REQUEST: a host write of WV_SWAP[w]; with REQ = 1 a planned swap-in of LPOS is queued or refused (R91). A position whose
swap-in runs already is refused like a queued one, which the rule does not state: DESIGN CHOICE, log 65. DESIGN CHOICE, log 7. -/
def Block.swapRequest (b : Block) (w : Nat) (data : Word) : Block :=
  let a := WV_SWAP_REQ.base + 4 * w
  let b := b.storeWritable a data
  let b := if data.getLsbD 30 then b.put WV_SWAP_REFUSED 0 w else b
  if !data.getLsbD 31 then b
  else
    let l := Fld.get WV_SWAP_LPOS data
    let bad := weaveOfPhase l != w || l ≥ 1024 || !populatedIn b.isV l ||
      (match b.serving l with | some p => b.cond p = cSafe | none => false) ||
      (b.W w).queue.any (fun e => e.lpos = l) || b.swapTarget w = some l
    if bad then b.put WV_SWAP_REFUSED 1 w
    else if (b.idleSpares w).isEmpty then (b.put WV_SWAP_REFUSED 1 w).raise srcPOOL_EMPTY w
    else b.queueSwap w { lpos := l, planned := true }

/-- SWAP_REQUEST (R91). -/
def execSwapRequest (t w : Nat) (data : Word) (s : State) : Host.Outcome State Fault Refusal :=
  s.run (fun b => if w < 16 then (b.at t).hostWrite (WV_SWAP_REQ.base + 4 * w) data (fun b d => b.swapRequest w d) else b)

end Sys2Proof.Machine
end

