-- ==== Sys2Proof/Machine/Droop.lean ====
section
/-! DEFINITION. The droop path, the remote-sense checks and the region's voltage faults (R17, R38, R75, R108 to R121,
R123). -/

namespace Sys2Proof.Machine

/-- The droop lead after an episode starts: the index of the next available phase, or of the one after it under dither (R75). -/
def Block.nextLead (b : Block) (n : Nat) : Nat :=
  let a := b.available n (b.R n).leadK
  let step := if b.efld WV_PLAIT_DITHER (weaveOf n) = 1 && a.length ≥ 3 && b.clk.plaitDraw.getLsbD n then 2 else 1
  match a[step % a.length]? with
  | some p => b.kOf p
  | none => (b.R n).leadK

/-- The round limit of a weave; 0 acts as 1 (R119). -/
def Block.roundLimit (b : Block) (w : Nat) : Nat := max 1 (b.efld WV_LOOP_ROUNDS w)

/-- Detectors of a region are crossed: each keeps the time of its crossing while the episode lasts (R117). -/
def Block.cross (b : Block) (n live : Nat) : Block :=
  b.modR n (fun r => { r with
    crossed := r.crossed ||| live
    crossAt := ((List.range 4).filter (fun k => live / 2 ^ k % 2 = 1 && r.crossed / 2 ^ k % 2 = 0)).foldl
      (fun m k => m.set (fun _ => 0) k b.now) r.crossAt })

/-- A crossing of the region's unmasked detectors with the path armed starts an episode: the first round of pulses, the
count, DROOP_ASSERT, and the engine clock's restart (R14, R17, R38, R119, R121). The window code latched before the crossing counts
as the first one seen in the episode, which R121 leaves open: DESIGN CHOICE, log 67. -/
def Block.episodeStart (b : Block) (n crossed : Nat) : Block :=
  let live := (BitVec.ofNat 4 crossed) &&& ~~~(BitVec.ofNat 4 (b.fld REG_STATUS_DET_MASK n))
  if live = 0 || !armedIn (b.st n) || b.extest then b
  else if (b.R n).episode then b.cross n live.toNat
  else
    let lead := b.nextLead n
    let win := b.fld REG_VSENSE_WINDOW n
    let b := b.incr REG_DROOPCNT_EPISODES n
    let b := b.modR n (fun r => { r with
      episode := true, epStart := b.now, epMin := win, rounds := 1, epLead := r.leadK, leadK := lead, droopAssert := true
      begun := r.begun ++ [b.now], tickMin := min r.tickMin win
      probeFrame := if r.probe.isSome then none else r.probeFrame, probe := none })
    ((b.cross n live.toNat).firePulses n).restartEvent

/-- DROOP_EPISODE_START (R119). -/
def execDroopEpisodeStart (t n crossed : Nat) (s : State) : Host.Outcome State Fault Refusal :=
  s.run (fun b => if n < 256 then (b.at t).episodeStart n crossed else b)

/-- DROOP_ROUND: a further round, up to the round limit (R119). -/
def execDroopRound (n : Nat) (s : State) : Host.Outcome State Fault Refusal :=
  s.run (fun b =>
    if n < 256 && (b.R n).episode && armedIn (b.st n) && (b.R n).rounds < b.roundLimit (weaveOf n) then
      (b.modR n (fun r => { r with rounds := r.rounds + 1 })).firePulses n
    else b)

/-- The episode ends: its lowest window code is recorded, it is kept for the snapshot, a deferred rotation follows, and
DROOP_ASSERT falls once its 100 ns minimum has passed (R17, R38, R74, R121). -/
def Block.episodeEnd (b : Block) (n : Nat) : Block :=
  if !(b.R n).episode then b
  else
    let b := b.closeEpisode n
    if (b.R n).rotDue then b.rotate n else b

/-- DROOP_EPISODE_END (R17). -/
def execDroopEpisodeEnd (t n : Nat) (s : State) : Host.Outcome State Fault Refusal :=
  s.run (fun b => if n < 256 then (b.at t).episodeEnd n else b)

/-- DROOP_ASSERT falls once its 100 ns minimum has passed and nothing else holds it: not before 100 ns after phase drive has
resumed (R38, R333, R334). -/
def Block.assertExpiry (b : Block) (n : Nat) : Block :=
  if (b.R n).episode || b.clk.assertAll || b.now < max (b.R n).epStart b.clk.resumedAt + 100 then b
  else b.modR n (fun r => { r with droopAssert := false })

/-- DROOP_ASSERT_MIN_EXPIRY (R38). -/
def execDroopAssertMinExpiry (t n : Nat) (s : State) : Host.Outcome State Fault Refusal :=
  s.run (fun b => if n < 256 then (b.at t).assertExpiry n else b)

/-- No droop episode, slew or raise is in progress (R113); without a set-point to follow there is no slew. -/
def Block.sensingQuiet (b : Block) (n : Nat) : Bool :=
  let slewing := match b.goal n with
    | some (v, _) => b.fld REG_VSET_APPLIED n != v
    | none => false
  !(b.R n).episode && !slewing && (b.R n).raiseAt.isNone

/-- The 1 ms frame of region `n` that runs: its probes fall due n × 3.9 µs into each (R113). DESIGN CHOICE, log 63. -/
def Block.probeSlot (b : Block) (n : Nat) : Option Nat :=
  if b.now < n * 3900 then none else some ((b.now - n * 3900) / 1000000)

/-- A leg probe may run now: due in its frame and enabled on the remote pair, or asked for by a clear; with a full 1 µs of
readings, and free of droop, slew and raise (R113, R114). -/
def Block.probeFree (b : Block) (n : Nat) : Bool :=
  let r := b.R n
  (r.clearProbe || b.efld REG_SENSE_CFG_PROBE_EN n = 1 && !b.bit REG_STATUS_SENSE_SRC n && (b.probeSlot n).isSome &&
    r.probeFrame != b.probeSlot n) &&
  b.sensingQuiet n && r.probe.isNone && r.last16.length = 16

/-- A leg probe starts: the readings of the 1 µs before it are kept (R113). -/
def Block.probeStart (b : Block) (n : Nat) : Block :=
  if !b.probeFree n then b
  else b.modR n (fun r => { r with probe := some r.last16.sum, probeAt := b.now, probeFrame := b.probeSlot n })

/-- PROBE_START (R113). -/
def execProbeStart (t n : Nat) (s : State) : Host.Outcome State Fault Refusal :=
  s.run (fun b => if n < 256 then (b.at t).probeStart n else b)

/-- The probe ends after 2 µs: a shift of the mean above 4 mV fails it; two failures running mark the connection cracked; a
probe run at clearing ends the fallback when it passes. One that a droop, slew or raise has met is deferred (R113, R114).
DEDUCED, log 40. -/
def Block.probeEnd (b : Block) (n : Nat) : Block :=
  match (b.R n).probe with
  | none => b
  | some before =>
    if b.now < (b.R n).probeAt + 2000 then b
    else if !b.sensingQuiet n then b.modR n (fun r => { r with probe := none, probeFrame := none })
    else
    let failed := decide ((b.R n).last16.sum > before + 128)
    let b := b.modR n (fun r => { r with probe := none })
    if (b.R n).clearProbe then
      let b := b.modR n (fun r => { r with clearProbe := false, probeRun := 0 })
      if failed then b else ((b.noteRef n).put REG_STATUS_CRACKED 0 n).put REG_STATUS_SENSE_SRC 0 n
    else if failed then
      b.modR n (fun r => { r with probeRun := r.probeRun + 1, crackDue := r.crackDue || decide (r.probeRun + 1 ≥ 2) })
    else b.modR n (fun r => { r with probeRun := 0 })

/-- PROBE_END (R113). -/
def execProbeEnd (t n : Nat) (s : State) : Host.Outcome State Fault Refusal :=
  s.run (fun b => if n < 256 then (b.at t).probeEnd n else b)

/-- OV_TRIP: a trip at an unmasked comparator is a class S event for the region (R108, R152). -/
def execOvTrip (t n site : Nat) (s : State) : Host.Outcome State Fault Refusal :=
  s.run (fun b =>
    let b := b.at t
    if n < 256 && site < 4 && !((BitVec.ofNat 4 (b.fld REG_STATUS_OVC_MASK n)).getLsbD site) then b.classS srcOV n else b)

/-- UV_TIMEOUT: below 85 % of the reference for 16 µs in RUN (R110); suspended while the REGION group's reference has not settled
(R354). -/
def execUvTimeout (t n : Nat) (s : State) : Host.Outcome State Fault Refusal :=
  s.run (fun b =>
    let b := b.at t
    match (b.R n).uvAt with
    | some a =>
      if n < 256 && b.st n = sRun && b.refSettled 0 && a + 16000 ≤ b.now then
        (b.report srcUV n).modR n (fun r => { r with uvAt := some b.now })
      else b
    | none => b)

/-- A detector site's mask bit is set and DET_DEAD raised; the masks now stay until this fault is cleared (R116, R117). With all four
masked the region has no droop path: an episode in progress ends (R118). -/
def Block.maskDetector (b : Block) (n k : Nat) : Block :=
  let b := b.modR n (fun r => { r with maskEnd := false, crossed := r.crossed - (r.crossed &&& 2 ^ k), crossAt := r.crossAt.erase k })
  let b := b.put REG_STATUS_DET_MASK (b.fld REG_STATUS_DET_MASK n ||| 2 ^ k) n
  (b.when (b.fld REG_STATUS_DET_MASK n = 15) (fun b => b.episodeEnd n)).report srcDET_DEAD n

/-- Detector `k` of a region in RUN, not masked, has stayed crossed for 10 µs while every reading stood more than 10 mV above
its threshold (R117). -/
def Block.detectorStuck (b : Block) (n k : Nat) : Bool :=
  let r := b.R n
  b.st n = sRun && !(BitVec.ofNat 4 (b.fld REG_STATUS_DET_MASK n)).getLsbD k && (BitVec.ofNat 4 r.crossed).getLsbD k &&
  r.crossAt.get (fun _ => 0) k + 10000 ≤ b.now && r.clearSince + 10000 ≤ b.now && b.aboveThreshold n (b.fld REG_VSENSE_VOUT n)

/-- DETECTOR_STUCK_TIMEOUT (R117). -/
def execDetectorStuckTimeout (t n k : Nat) (s : State) : Host.Outcome State Fault Refusal :=
  s.run (fun b =>
    let b := b.at t
    if n < 256 && k < 4 && b.detectorStuck n k then b.maskDetector n k else b)

/-- RAISE_SLOW_TIMEOUT: a raise not granted 20 µs after its first commit (R123). -/
def execRaiseSlowTimeout (t n : Nat) (s : State) : Host.Outcome State Fault Refusal :=
  s.run (fun b =>
    let b := b.at t
    match (b.R n).raiseAt with
    | some a => if n < 256 && a + 20000 ≤ b.now then b.report srcRAISE_SLOW n else b
    | none => b)

end Sys2Proof.Machine
end

