-- ==== Sys2Proof/Machine/Power.lean ====
section
/-! DEFINITION. Region power states: soft start, Dawn, Dusk, exits and the host's sleep and wake requests (chapter 5).
-/

namespace Sys2Proof.Machine

/-- FORECAST_EXIT_START: the SLO-timed wait has ended and the exit starts, to RUN; an exit that was to stop short of RUN goes
on to it (R142). -/
def execForecastExitStart (t n : Nat) (s : State) : Host.Outcome State Fault Refusal :=
  s.run (fun b =>
    let b := b.at t
    match (b.R n).exitAt with
    | some c =>
      if n < 256 && c ≤ b.slo && !b.wakeIgnored n then
        (b.modR n (fun r => { r with exitTo := 0, exitAt := none })).startExit n
      else b
    | none => b)

/-- REGION_READY: every condition of R139 holds for a waking region. -/
def Block.readyNow (b : Block) (n : Nat) : Bool :=
  b.st n = sWaking && b.fld REG_VSET_APPLIED n = b.runTarget0 n && (b.R n).hdrEn = 0xFFFF && !(b.R n).budget &&
  (b.mapped n).all (fun p => [cSwitching, cBlind, cSafe].contains (b.cond p))

/-- REGION_READY (R139). -/
def execRegionReady (t n : Nat) (s : State) : Host.Outcome State Fault Refusal :=
  s.run (fun b => let b := b.at t; if n < 256 && b.readyNow n then b.becomeReady n else b)

/-- A reading below half of a set-point (R151). -/
def Block.belowHalf (b : Block) (n v : Nat) : Bool := b.fld REG_VSENSE_VOUT n * 2 < v

/-- SOFTSTART_STAGE: a 2 µs stage ends; a reading below half the reference marks the region SHORT (R150, R151).
DESIGN CHOICE, log 4. -/
def execSoftstartStage (t n : Nat) (s : State) : Host.Outcome State Fault Refusal :=
  s.run (fun b =>
    let b := b.at t
    if n < 256 && b.st n = sSoftstart && !b.clk.forcing then
      if b.belowHalf n (b.reference n) then b.classS srcSHORT n else b.incrSat REG_PSTATE_STAGE n
    else b)

/-- The mesh has settled: the region reads within 5 mV of its reference (R150). DEDUCED, log 19. -/
def Block.meshSettled (b : Block) (n : Nat) : Bool :=
  decide (((b.fld REG_VSENSE_VOUT n : Int) - b.reference n).natAbs ≤ 10)

/-- SOFTSTART_TIMEOUT: not settled 20 µs after the target was reached (R150). -/
def execSoftstartTimeout (t n : Nat) (s : State) : Host.Outcome State Fault Refusal :=
  s.run (fun b =>
    let b := b.at t
    match (b.R n).ssAt with
    | some a =>
      if n < 256 && b.st n = sSoftstart && a + 20000 ≤ b.now && !b.meshSettled n then
        ((b.toFaulted n causeSs false).report srcSS_TIMEOUT n).stopCheck
      else b
    | none => b)

/-- Mesh soft start has ended with its self-test: Dawn for a region that is waking or outside every group, else
PRIMED; during a block warm reset always PRIMED (R139, R159, R160). -/
def Block.afterSoft (b : Block) (n : Nat) : Block :=
  let b := b.modR n (fun r => { r with integ := 0, ssAt := none })
  if !b.restarting && ((b.R n).keptWake || (b.groupOf n).isNone) then b.startDawn n 0
  else (b.setSt n sPrimed).put REG_PSTATE_STAGE 0 n

/-- The detector self-test's outcome: failures masked and DET_DEAD raised; masks of a cleared fault end when the site
passes; a region without an over-voltage comparator never starts (R116, R117, R118). -/
def Block.selfTest (b : Block) (n detFail ovcFail : Nat) : Block :=
  if b.st n != sSoftstart || (b.R n).ssAt.isNone || !b.meshSettled n then b
  else
    let ended := (b.R n).maskEnd
    let det := (if ended then 0 else b.fld REG_STATUS_DET_MASK n) ||| detFail % 16
    let ovc := (if ended then 0 else b.fld REG_STATUS_OVC_MASK n) ||| ovcFail % 16
    let b := (b.put REG_STATUS_DET_MASK det n).put REG_STATUS_OVC_MASK ovc n
    let b := b.modR n (fun r => { r with maskEnd := false })
    let b := if detFail % 16 != 0 || ovcFail % 16 != 0 then b.report srcDET_DEAD n else b
    if ovc = 15 then ((b.toFaulted n causeOvc false).report srcOVC_DEAD n).stopCheck else b.afterSoft n

/-- DETECTOR_SELF_TEST_DONE (R116). -/
def execDetectorSelfTestDone (t n detFail ovcFail : Nat) (s : State) : Host.Outcome State Fault Refusal :=
  s.run (fun b => if n < 256 then (b.at t).selfTest n detFail ovcFail else b)

/-- A Dawn stage or wait period ends (R151, R153, R154, R155). Between a chip reset and its weave's Dusk slot a Dawn goes on, of which
R158 says nothing: DESIGN CHOICE, log 68. -/
def Block.dawnStage (b : Block) (n : Nat) : Block :=
  let r := b.R n
  if b.st n != sDawn || r.resetDusk || b.clk.forcing || b.extest then b
  else if r.waits < 8 then b.dawnCompare n
  else if b.belowHalf n (b.runTarget0 n) then b.classS srcSHORT n
  else if r.stage = 15 then b.becomeReady n
  else
    let b := (b.put REG_PSTATE_STAGE (r.stage + 1) n).modR n (fun r => { r with stage := r.stage + 1, waits := 0 })
    b.dawnCompare n

/-- DAWN_STAGE (R153). DESIGN CHOICE, log 4. -/
def execDawnStage (t n : Nat) (s : State) : Host.Outcome State Fault Refusal :=
  s.run (fun b => if n < 256 then (b.at t).dawnStage n else b)

/-- The end of a Dusk: DARK, or DARK-FAULTED with cause CAPACITY; a wake kept through a block warm reset starts the
region again (R149, R156, R159). DEDUCED, log 33. -/
def Block.duskDone (b : Block) (n : Nat) : Block :=
  if (b.R n).capDark then (b.toFaulted n causeCapacity false).report srcCAPACITY n else b.darkAgain n

/-- A 1.25 µs stage of a Dusk, or of a reversal, ends (R156, R158, R159, R314). -/
def Block.duskStage (b : Block) (n : Nat) : Block :=
  if b.clk.forcing then b
  else
    let r := b.R n
    let b :=
      if r.resetDusk then
        (match topSegment r.hdrEn with
         | some _ => b.unwind n
         | none => if (b.R n).capDark then (b.toFaulted n causeCapacity false).report srcCAPACITY n else b.unwound n)
      else if b.st n = sDusk then
        if r.stage = 0 then b.duskDone n
        else
          (b.put REG_PSTATE_STAGE (r.stage - 1) n).modR n (fun r =>
            { r with stage := r.stage - 1, hdrEn := r.hdrEn &&& ~~~(1#16 <<< (r.stage - 1)) })
      else b
    b.stopCheck

/-- DUSK_STAGE (R156). -/
def execDuskStage (t n : Nat) (s : State) : Host.Outcome State Fault Refusal :=
  s.run (fun b => if n < 256 then (b.at t).duskStage n else b)

/-- The partitions the image maps to a region show a non-zero counter in the latest frame (R144). -/
def Block.regionBusy (b : Block) (n : Nat) : Bool := (b.R n).busy

/-- A region leaves RUN for a depth (R145); forced when its counters are not zero. -/
def Block.startDescent (b : Block) (n depth : Nat) (forced : Bool) : Block :=
  (b.setSt n sLeaving).modR n (fun r => { r with descent := 1, depth := depth, forced := forced, abandon := false,
                                                 raiseAt := none })

/-- A sleep request takes effect on the regions of a group in RUN (R144). In minimum safe mode it has none (R419).
DEDUCED, log 30. -/
def Block.groupSleep (b : Block) (g : Nat) (force : Bool) : Block :=
  if b.bit IMG_STATUS_SAFE then b
  else
    b.each ((b.groupRegions g).filter (fun n => b.st n = sRun)) (fun b n =>
      let depth := b.fld REG_PSTATE_DEPTH n
      if depth = 0 || b.wakeIgnored n then b
      else if b.regionBusy n && !force then (b.put REG_PSTATE_REFUSED 1 n).put REG_GSLEEP_REFUSED 1 g
      else b.startDescent n depth (b.regionBusy n))

/-- The sleep requests written since the last boundary take effect (R161). -/
def Block.takeSleeps (b : Block) : Block :=
  let due := b.gsleep
  ({ b with gsleep := [] } : Block).each groups (fun b g =>
    let k := due.get (fun _ => 0) g
    if k = 0 then b else b.groupSleep g (k = 2))

/-- A write of REG_GSLEEP[g]: a clear of REFUSED waits for the next boundary; with WAKE = 1 every region of the group is woken at the
transfer edge, and SLEEP is ignored; else a sleep request waits for the next boundary (R138, R144, R161, R166). DEDUCED, log 30. -/
def Block.gsleepWrite (b : Block) (g : Nat) (data : Word) : Block :=
  let b := b.writeFlags (REG_GSLEEP_SLEEP.base + 4 * g) data
  if data.getLsbD 29 then b.each (b.groupRegions g) Block.wake
  else if data.getLsbD 31 then { b with gsleep := b.gsleep.set (fun _ => 0) g (if data.getLsbD 30 then 2 else 1) }
  else b

/-- GROUP_SLEEP_REQUEST (R144). -/
def execGroupSleepRequest (t g : Nat) (data : Word) (s : State) : Host.Outcome State Fault Refusal :=
  s.run (fun b => if g < 32 then (b.at t).hostWrite (REG_GSLEEP_SLEEP.base + 4 * g) data (fun b d => b.gsleepWrite g d) else b)

/-- GROUP_WAKE_REQUEST (R138). -/
def execGroupWakeRequest (t g : Nat) (data : Word) (s : State) : Host.Outcome State Fault Refusal :=
  s.run (fun b => if g < 32 then (b.at t).hostWrite (REG_GSLEEP_SLEEP.base + 4 * g) data (fun b d => b.gsleepWrite g d) else b)

end Sys2Proof.Machine
end

