-- ==== Sys2Proof/Machine/Thermal.lean ====
section
/-! DEFINITION. The thermal guard (chapter 10): temperature samples, bands, broken and drifting sensors, the orderly and
immediate stop, the hardware trip, and the flash-write window. Temperatures are in units of 0.25 °C. -/

namespace Sys2Proof.Machine

/-- The block with its thermal guard changed. -/
def Block.modThm (b : Block) (f : Thm → Thm) : Block := { b with thm := f b.thm }

/-- The sensors TS0..TS271. -/
def sensors : List Nat := List.range 272

/-- The code of a sample (R299); free where no reference count came. DESIGN CHOICE, log 12. -/
def sampleCode (c : RingCount) : Nat := if c.nr = 0 then Config.codeOpen c.ns 0 else 65536 * c.ns / c.nr

/-- The code as the 16 bits of THM_SENSOR.CODE report it; free where it exceeds them. DESIGN CHOICE, log 12. -/
def codeField (c : RingCount) : Nat := if sampleCode c < 65536 then sampleCode c else Config.codeOpen c.ns c.nr % 65536

/-- The calibration codes in force of a sensor (R300, R301). -/
def Block.calCodes (b : Block) (i : Nat) : Nat × Nat :=
  match b.thm.cal.get (fun _ => none) i with
  | some c => c
  | none => Config.nominalCode i

/-- The reading of a code: 25 °C + 80 °C × (c − c25) / (c105 − c25), rounded to 0.25 °C (R300). DESIGN CHOICE, log 12. -/
def readingOf (i : Nat) (cal : Nat × Nat) (c : Nat) : Int :=
  let d : Int := (cal.2 : Int) - cal.1
  let x : Int := (c : Int) - cal.1
  if d = 0 then Config.readingOpen i c
  else 100 + (if d > 0 then nearest 38 (320 * x) d.toNat else nearest 38 (-(320 * x)) (-d).toNat)

/-- A code outside the plausible band, or too few reference counts (R304). -/
def outOfBand (i c nr : Nat) : Bool :=
  let bnd := Config.bandCode i
  nr < 1024 || c < min bnd.1 bnd.2 || c > max bnd.1 bnd.2

/-- A code beyond the sensor's trip code, on the hot side of it (R316). -/
def beyondTrip (i c : Nat) : Bool :=
  let bnd := Config.bandCode i
  if bnd.1 ≤ bnd.2 then c > Config.tripCode i else c < Config.tripCode i

/-- The neighbours of a sensor: of TSn those of regions n − 1 and n + 1 in its weave; of a spare the 16 of its weave
(R304). -/
def neighbours (i : Nat) : List Nat :=
  if i < 256 then [i - 1, i + 1].filter (fun j => j != i && j < 256 && weaveOf j = weaveOf i)
  else regionsOf (i - 256)

/-- The readings kept of a sensor, newest first. -/
def Block.sensorHist (b : Block) (i : Nat) : List Int := b.thm.hist.get (fun _ => []) i

/-- A sensor's reading `k` samples ago. -/
def Block.sensorT (b : Block) (i : Nat) (k : Nat := 0) : Int := (b.sensorHist i).getD k 0

/-- Sum of a sensor's neighbours' readings `k` samples ago. -/
def Block.neighbourSum (b : Block) (i k : Nat) : Int := ((neighbours i).map (fun j => b.sensorT j k)).sum

/-- The mean of a sensor's neighbours in 1/1024 of 0.25 °C (they number 1, 2 or 16). -/
def Block.neighbourMean (b : Block) (i : Nat) : Int := 1024 * b.neighbourSum i 0 / (neighbours i).length

/-- The spread of a list of values. -/
def spread (xs : List Int) : Int :=
  match xs with
  | [] => 0
  | x :: r => r.foldl max x - r.foldl min x

/-- Stuck: over the last 1 ms the reading has moved by at most 0.25 °C while the mean of the neighbours has moved by
more than 3 °C (R304). DEDUCED, log 34. -/
def Block.stuck (b : Block) (i : Nat) : Bool :=
  let h := (b.sensorHist i).take 101
  h.length = 101 && spread h ≤ 1 &&
  decide (spread ((List.range 101).map (b.neighbourSum i)) > 12 * ((neighbours i).length : Nat))

/-- Drifting: the filtered difference has changed by more than DRIFT_MAX from the value at test (R305).
DESIGN CHOICE, log 12; DEDUCED, log 34. -/
def Block.drifting (b : Block) (i : Nat) : Bool :=
  decide ((b.thm.diff.get (fun _ => 0) i - Config.driftAtTest i).natAbs > 1024 * b.fld THM_CFG_DRIFT_MAX)

/-- A sensor is broken: out of band or stuck. DEDUCED, log 34. -/
def Block.broken (b : Block) (i : Nat) : Bool := b.fld THM_SENSOR_STATE i = 1 || b.fld THM_SENSOR_STATE i = 2

/-- The code and reading of each sensor for the sample, and the filters of R305 and R306. DEDUCED, log 34. -/
def Block.takeCodes (b : Block) (counts : List RingCount) : Block :=
  let b := b.each sensors (fun b i =>
    let c := counts.getD i ⟨0, 0⟩
    let code := sampleCode c
    let t := readingOf i (b.calCodes i) code
    (b.put THM_SENSOR_CODE (codeField c) i).modThm (fun x =>
      { x with hist := x.hist.set (fun _ => []) i ((t :: b.sensorHist i).take 110) }))
  let b := b.each sensors (fun b i =>
    let d := 1024 * b.sensorT i - b.neighbourMean i
    b.modThm (fun x => { x with diff := x.diff.set (fun _ => 0) i (Config.filtered 100000 (x.diff.get (fun _ => 0) i) d) }))
  b.each regions (fun b n =>
    let d := b.neighbourMean n - 1024 * b.sensorT (256 + weaveOf n)
    b.modThm (fun x => { x with lead := x.lead.set (fun _ => 0) n (Config.filtered 1000 (x.lead.get (fun _ => 0) n) d) }))

/-- The region a weave's spare sensor stands in for. -/
def Block.standIn (b : Block) (w : Nat) : Option Nat :=
  if b.fld THM_SPARE_STATE w = 1 then some (b.fld THM_SPARE_SERVES w) else none

/-- The weave's spare stands in for region `n`, its offset frozen (R306). DEDUCED, log 35. -/
def Block.startStandIn (b : Block) (n : Nat) : Block :=
  let w := weaveOf n
  let ofs := unsigned 12 (rounded 39 ((b.thm.lead.get (fun _ => 0) n : Int) / (1024 : Rat)))
  (((b.put THM_SPARE_STATE 1 w).put THM_SPARE_SERVES n w).put THM_SPARE_OFS ofs w).logWear 1 (256 + w) (some n) ofs

/-- A sensor is marked: its state, the wear log, the flag, and the spare if one is idle (R304 to R306). -/
def Block.markSensor (b : Block) (i code : Nat) : Block :=
  let b := (b.put THM_SENSOR_STATE code i).logWear 1 i none code
  if i ≥ 256 then
    if code = 3 then b.report srcTHM_BROKEN i else (b.put THM_SPARE_STATE 2 (i - 256)).report srcTHM_BROKEN i
  else
    let served := b.standIn (weaveOf i) = some i
    let idle := b.fld THM_SPARE_STATE (weaveOf i) = 0
    let b := if code != 3 || !(idle || served) then b.report srcTHM_BROKEN i else b
    if idle then b.startStandIn i else b

/-- The marks of a sample: a sensor out of band or stuck is marked broken, one that drifts is marked drifting. -/
def Block.markSensors (b : Block) (counts : List RingCount) : Block :=
  b.each sensors (fun b i =>
    if b.broken i then b
    else if outOfBand i (sampleCode (counts.getD i ⟨0, 0⟩)) (counts.getD i ⟨0, 0⟩).nr then b.markSensor i 1
    else if b.stuck i then b.markSensor i 2
    else if b.fld THM_SENSOR_STATE i = 0 && b.drifting i then b.markSensor i 3
    else b)

/-! Thresholds in force (R301, R318), in °C. -/
def Block.nominalDrop (b : Block) : Int := if b.bit THM_STATUS_NOMINAL then 8 else 0
def Block.stopC (b : Block) : Int := (min (b.fld THM_THR_STOP) 110 : Nat) - b.nominalDrop
def Block.throttleC (b : Block) : Int := (min (b.fld THM_THR_THROTTLE) (min (b.fld THM_THR_STOP) 110) : Nat) - b.nominalDrop

/-- The lower bound of a band, in 0.25 °C (Table 10-1). -/
def bandLow (k : Nat) : Int := [0, 100, 180, 240, 300, 340, 380, 420].getD k 0

/-- The band after a reading, with 1 °C of hysteresis (R303). -/
def nextBand (band : Nat) (t : Int) : Nat :=
  let up := ((List.range 8).filter (fun k => k > band && t ≥ bandLow k)).foldl max band
  if up > band then up
  else (List.range 8).foldl (fun m _ => if m > 0 && t < bandLow m - 4 then m - 1 else m) band

/-- The source of a region's reading for this sample: 0 its own sensor, 1 the stand-in, 2 substituted. `before` tells
whether the stand-in was in place before the sample (R306, R307). -/
def Block.readingSrc (b : Block) (before : Bool) (n : Nat) : Nat :=
  let stood := before && b.standIn (weaveOf n) = some n
  if stood then 1 else if b.broken n then 2 else 0

/-- The mean of ten readings, times ten, from sample `k` back (R308). -/
def sumTen (h : List Int) (k : Nat) : Int := ((h.drop k).take 10).sum

/-- The rate of rise in 0.025 °C/ms: 0 until 1.1 ms of readings exist (R308). -/
def rateOf (h : List Int) : Int := if h.length < 110 then 0 else sumTen h 0 - sumTen h 100

/-- RISE_THR in 0.025 °C/ms; 0 acts as 1 (R318, R320). -/
def Block.riseThr (b : Block) : Int := 5 * (max 1 (b.fld THM_THR_RISE_THR) : Nat)

/-- One region's reading, band, rate and guard temperature (R302, R303, R307 to R309); a change of band reads the table minimum
again (R517). A rate that THM_TEMP.RATE cannot hold saturates in it, of which R323 says nothing: DESIGN CHOICE, log 78. -/
def Block.regionTemp (b : Block) (before : Nat → Bool) (n : Nat) : Block :=
  let w := weaveOf n
  let src := b.readingSrc (before n) n
  let t := if src = 2 then 4 * b.stopC
    else if src = 1 then b.sensorT (256 + w) + signed 12 (b.fld THM_SPARE_OFS w) else b.sensorT n
  let h := (t :: b.thm.rhist.get (fun _ => []) n).take 110
  let r := rateOf h
  let tg := if r > b.riseThr && src != 2 then 100 * t + (b.fld THM_CFG_HOR : Nat) * r else 100 * t
  let b := (b.put THM_TEMP_SRC src n).put THM_TEMP_TEMP (unsigned 12 t) n
  let band := if src = 2 then 7 else nextBand (b.fld THM_TEMP_BAND n) t
  let b := if band = b.fld THM_TEMP_BAND n then b else (b.put THM_TEMP_BAND band n).readMin n
  let b := b.put THM_TEMP_RATE (unsigned 10 (clampI (-512) 511 (rounded 40 ((r : Rat) / 10)))) n
  let b := b.modThm (fun x => { x with rhist := x.rhist.set (fun _ => []) n h, tg := x.tg.set (fun _ => 0) n tg })
  let b := if src = 2 && b.standIn w != some n then b.report srcTHM_NO_SPARE n else b
  if r > b.riseThr then b.report srcTHM_RISE 0 else b

/-- The region with the highest reading, the lowest-numbered of equals. DEDUCED, log 35. -/
def Block.hottest (b : Block) : Nat :=
  (regions.foldl (fun (m : Nat × Int) n =>
    let t := signed 12 (b.fld THM_TEMP_TEMP n)
    if t > m.2 then (n, t) else m) (0, -4096)).1



/-- The predicted time to trip of a region exceeds 200 µs: (115 °C − T) / r, unbounded without a rise (R312). -/
def Block.tripFar (b : Block) (n : Nat) : Bool :=
  let r := rateOf (b.thm.rhist.get (fun _ => []) n)
  decide (r ≤ 0) || decide ((460 - signed 12 (b.fld THM_TEMP_TEMP n)) * 50 > r)

/-- A region's reading exceeds STOP; a substituted one never counts (R307, R312). -/
def Block.overStop (b : Block) (n : Nat) : Bool :=
  b.fld THM_TEMP_SRC n != 2 && decide (signed 12 (b.fld THM_TEMP_TEMP n) > 4 * b.stopC)

/-- A reading of a sensor not broken exceeds STOP (R312). -/
def Block.aboveStop (b : Block) : Bool :=
  regions.any b.overStop || sensors.any (fun i => !b.broken i && decide (b.sensorT i > 4 * b.stopC))

/-- A thermal stop is decided: its sequence starts at step 1, or at step 3 without the time for an acknowledgement; one that
still runs after STOP was cleared goes on, without waiting longer where there is no time for it (R312, R313, R315).
DEDUCED, log 35. -/
def Thm.stopNow (x : Thm) (far : Bool) (now : Nat) : Thm :=
  if x.stopStep = 0 then { x with stopStep := if far then 1 else 3, stopAt := now }
  else if x.stopStep = 1 && !far then { x with stopStep := 3 } else x

/-- A thermal stop starts when a reading of a sensor not broken exceeds STOP, unless the last one has not been cleared
(R312, R313, R315). DEDUCED, log 35. -/
def Block.judgeStop (b : Block) : Block :=
  if !b.aboveStop || b.bit THM_STATUS_STOP || b.bit THM_STATUS_TRIP then b
  else
    let far := regions.all (fun n => !b.overStop n || b.tripFar n)
    let req := if b.thm.stopStep = 0 then far else b.quiesceReq
    let b := (b.put THM_STATUS_IMMEDIATE (if far then 0 else 1)).modThm (fun x => x.stopNow far b.now)
    ({ b with quiesceReq := req }.report srcTHM_STOP 0).stopApply

/-- The code of a sensor not marked out of band stands beyond its trip code (R316). -/
def Block.tripped (b : Block) (counts : List RingCount) (i : Nat) : Bool :=
  b.fld THM_SENSOR_STATE i != 1 && beyondTrip i (sampleCode (counts.getD i ⟨0, 0⟩))

/-- The hardware trip: a code beyond its trip code, sensors marked out of band excluded (R316). DEDUCED, log 35. -/
def Block.judgeTrip (b : Block) (counts : List RingCount) : Block :=
  if sensors.any (b.tripped counts) && !b.pendingSrc srcHW_TRIP then b.classS srcHW_TRIP 0 else b

/-- The thresholds that readings stand above: of region `n` THROTTLE as `n` and STOP as 256 + n, and the trip code of sensor `i`
as 512 + i (Table 10-2). -/
def Block.overs (b : Block) (counts : List RingCount) : List Nat :=
  regions.filter (fun n => decide (b.guardT n > 400 * b.thm.thr)) ++ (regions.filter b.overStop).map (256 + ·) ++
  (sensors.filter (b.tripped counts)).map (512 + ·)

/-- The flash-write window: the readings of the CTRL_WV weave within 0 to 95 °C, and VIN within 1.71 to 1.89 V on each
of AUX0..AUX3; CTRL_WV is that of the last sample (R318); closed until each of them that is in use has a result against its settled
reference, or with two of them failed (R317, R354, R363). -/
def Block.flashWindow (b : Block) : Bool :=
  b.refSettled 2 && (List.range 4).all (fun q => b.adc.vinFresh.getLsbD q || b.bit ADC_AUX_FAILED q) &&
  ((List.range 4).filter (fun q => b.bit ADC_AUX_FAILED q)).length < 2 &&
  (regionsOf b.thm.ctrlWv).all (fun i => b.broken i || decide (0 ≤ b.sensorT i) && decide (b.sensorT i ≤ 380)) &&
  (List.range 4).all (fun q => 3420 ≤ b.vin q && b.vin q ≤ 3780)

/-- FLASH_OK follows the window (R317). DEDUCED, log 36. -/
def Block.noteWindow (b : Block) : Block :=
  if !b.flashWindow then b.shutWindow
  else if b.bit THM_STATUS_FLASH_OK then b
  else (b.put THM_STATUS_FLASH_OK 1).modThm (fun x => { x with windowAt := b.now })

/-- A flash operation may start (R317). DEDUCED, log 36. -/
def Block.flashMayStart (b : Block) : Bool := b.bit THM_STATUS_FLASH_OK && !b.thm.flashShut

/-- A temperature sample completes; a reading that has crossed a threshold restarts a stopped engine clock (R20, R299 to R318).
DEDUCED, log 35. -/
def Block.tempSample (b : Block) (counts : List RingCount) : Block :=
  let before := regions.map (fun n => decide (b.standIn (weaveOf n) = some n))
  let b := (b.takeCodes counts).markSensors counts
  let b := b.modThm (fun x => { x with thr := b.throttleC, ctrlWv := b.fld THM_CFG_CTRL_WV })
  let b := b.each regions (fun b n => b.regionTemp (fun n => before.getD n false) n)
  let overs := b.overs counts
  let b := if overs = b.thm.overs then b else b.restartEvent.modThm (fun x => { x with overs := overs })
  let hot := overs.any (· < 256)
  let b := (b.put THM_STATUS_HOT_REGION b.hottest).put THM_STATUS_THROTTLE (if hot then 1 else 0)
  (b.judgeTrip counts).judgeStop.noteWindow

/-- TEMP_SAMPLE (R299). -/
def execTempSample (t : Nat) (counts : List RingCount) (s : State) : Host.Outcome State Fault Refusal :=
  s.run (fun b => if b.aonUp && counts.length = 272 then (b.at t).tempSample counts else b)

/-- QUIESCE_ACK: the pin rises, and an orderly stop proceeds (R313 step 2). -/
def execQuiesceAck (t : Nat) (s : State) : Host.Outcome State Fault Refusal :=
  s.run (fun b =>
    let b := { b.at t with quiesceAck := true }
    if b.thm.stopStep = 1 then (b.modThm (fun x => { x with stopStep := 3 })).stopApply else b)

/-- QUIESCE_ACK_TIMEOUT: no acknowledgement within 150 µs (R313 step 2). -/
def execQuiesceAckTimeout (t : Nat) (s : State) : Host.Outcome State Fault Refusal :=
  s.run (fun b =>
    let b := b.at t
    if b.thm.stopStep = 1 && b.thm.stopAt + 150000 ≤ b.now then
      ((b.modThm (fun x => { x with stopStep := 3 })).report srcTHM_ACK_LATE 0).stopApply
    else b)

/-- A region starts down in a stop, or held DARK in minimum safe mode, by its state (R314, R420); a Dawn that a block warm reset already
reverses goes on to DARK. -/
def Block.goDown (b : Block) (n : Nat) : Block :=
  let b := b.modR n (fun r => { r with downAt := none })
  let st := b.st n
  if [sRun, sLeaving, sDoze, sNap, sWaking].contains st then b.startDusk n
  else if st = sDawn then
    if (b.R n).resetDusk then b.modR n (fun r => { r with toPrimed := false }) else if (topSegment (b.R n).hdrEn).isSome then b.unwind n else b.unwound n
  else if st = sSoftstart || st = sPrimed then b.toDark n
  else b

/-- STOP_REGION_DOWN: F_CUR is 0, or 1 µs has passed since the commit of step 3 (R313 step 4, R314). -/
def execStopRegionDown (t n : Nat) (s : State) : Host.Outcome State Fault Refusal :=
  s.run (fun b =>
    let b := b.at t
    match (b.R n).downAt with
    | some a =>
      if n < 256 && b.thm.stopStep = 4 && (b.fld REG_FIDX_CUR n = 0 || a + 1000 ≤ b.now) then (b.goDown n).stopCheck else b
    | none => b)

/-- THM_STOP_CLEAR: a write of THM_STATUS with STOP = 1; honoured only while every T_g is below THROTTLE (R315). -/
def execThmStopClear (t : Nat) (data : Word) (s : State) : Host.Outcome State Fault Refusal :=
  s.run (fun b => (b.at t).hostWrite THM_STATUS_STOP.base data (fun b d => b.writeFlags THM_STATUS_STOP.base d))

/-- The next flash operation of a commit that waits for the window starts (R429). -/
def Img.nextOp (i : Img) (now : Nat) : Img :=
  match i.commit with
  | some c => if c.ops.isEmpty || c.opAt.isSome then i else { i with commit := some { c with opAt := some now } }
  | none => i

/-- FLASH_WINDOW_REOPEN: the window has held for 10 ms (R317); a commit goes on (R429). -/
def execFlashWindowReopen (t : Nat) (s : State) : Host.Outcome State Fault Refusal :=
  s.run (fun b =>
    let b := b.at t
    if b.bit THM_STATUS_FLASH_OK && b.thm.windowAt + 10000000 ≤ b.now then
      { b.modThm (fun x => { x with flashShut := false }) with img := b.img.nextOp b.now }
    else b)

end Sys2Proof.Machine
end

