-- ==== Sys2Proof/Machine/Clocks.lean ====
section
/-! DEFINITION. Clock sources, loops and monitors (chapter 11): readiness and loss, the loops' reference, phase-clock
failover and collapse, requested switches, power modes, spread spectrum and phase alignment. Sources are numbered as
their ready flags in CLK_STATUS: 0 SLO, 1 FIO, 2 XA, 3 XB, 4 PLL-E, 5 PLL-P, 6 PLL-S, 7 the Hoop lane synthesisers. -/

namespace Sys2Proof.Machine

/-- The fault source of a clock source's loss. -/
def lossSrc (k : Nat) : Nat :=
  [srcSLO_STOP, srcFIO_LOSS, srcXA_LOSS, srcXB_LOSS, srcPLLE_LOSS, srcPLLP_LOSS, srcPLLS_LOSS, srcLANE_LOSS].getD k srcLANE_LOSS

/-- The service domain takes its clock from a source that is ready, its own first; with neither it stands (R337).
DESIGN CHOICE, log 39. -/
def Block.serviceClock (b : Block) : Block :=
  let own := if b.bit CLK_STATUS_SVC_SRC then kPLLE else kFIO
  if b.clkReady own then b.serveReactions
  else if b.clkReady (kFIO + kPLLE - own) then (b.put CLK_STATUS_SVC_SRC (1 - b.fld CLK_STATUS_SVC_SRC)).serveReactions
  else b.modClk (fun c => { c with svcStopped := true })

/-- A tick has been aborted: four in a row raise ENG_STUCK (R189), and ENG_CYCLES shows the abort (R205). -/
def Block.countAbort (b : Block) : Block :=
  let b := (b.put ENG_CYCLES_LAST 0x3FF).modEng (fun e => { e with aborts := e.aborts + 1 })
  if b.eng.aborts ≥ 4 then b.report srcENG_STUCK 0 else b

/-- The engine clock is gated off by a loss of PLL-E: the tick in flight is aborted (R336). DESIGN CHOICE, log 39. -/
def Block.engineClockLost (b : Block) : Block :=
  let b := if b.engineRunning then (b.modEng (fun e => { e.dropTick with cause := 3, suspect := if e.mismatch then some (b.tickno % 4) else e.suspect })).countAbort else b
  let b := b.redirectCopied.modEng (fun e => { e with clockStopped := true, restartReq := true, stopCycle := some b.cycleNow })
  (if [eRunning, eHalted, eInit].contains (b.fld ENG_STATUS_STATE) then b.put ENG_STATUS_STATE eClockStopped else b).stopApply

/-- The loss of the active phase loop: every phase is forced to SAFE and keeps the condition it held, DROOP_ASSERT rises
everywhere, and ISSUE_LIMIT, FLOOR and F_PERMIT go to 0 with the next commit, or at once without an engine (R333, Tables 11-3 and
13-2). DEDUCED, log 38. -/
def Block.phaseLoopLost (b : Block) : Block :=
  if b.clk.forcing then b
  else
    let b := b.modClk (fun c => { c with forcing := true, failAt := b.now, collapsed := false, issueHold := 2, assertAll := true })
    let b := b.withPools (fun b => b.each phases (fun b p =>
      if !b.inService p || b.cond p = cSafe then b
      else
        let was := b.cond p
        (b.setCond p cSafe).modP p (fun x => { x with saved := some was })))
    let b := b.each regions (fun b n => b.modR n (fun r => { r with droopAssert := true }))
    (b.each regions Block.zeroOut).classS srcPH_ACTIVE_LOSS 0

/-- A phase forced by the loss of the active loop returns to the condition it held; one that another fault holds stays
in SAFE (R334, R381). After a collapse it returns parked. DEDUCED, log 38. -/
def Block.restorePhase (b : Block) (p : Nat) : Block :=
  match (b.P p).saved with
  | none => b
  | some c =>
    let b := b.modP p (fun x => { x with saved := none })
    if b.cond p != cSafe || b.heldSafe p then b
    else b.setCond p (if b.clk.collapsed && (c = cSwitching || c = cBlind || c = cCalibrating) then cParked else c)

/-- A swap-in that was running restarts at SELECT with the same spare (R334). DEDUCED, log 38. -/
def Block.restartSwap (b : Block) (w : Nat) : Block :=
  if (b.W w).run.isSome then
    let b := (b.put WV_SWAP_STAGE 1 w).modW w (fun x => { x with startedAt := b.now, ramp := 0, calLog := [], calFl := false })
    (b.modP (b.W w).spare (fun x => { x with steerCmd := [] })).sendSteer w
  else b

/-- Phase drive resumes on a loop that is ready (R334): before the collapse the phases return to their conditions and
the sequences go on; after it every region not DARK-FAULTED soft-starts. DEDUCED, log 38. -/
def Block.resumeDrive (b : Block) (loop : Nat) : Block :=
  let swapped := loop != b.activeLoop
  let b := b.put CLK_STATUS_PH_ACTIVE (loop - kPLLP)
  let collapsed := b.clk.collapsed
  let b := if swapped then b.incrSat CLK_FAILOVER_COUNT else b
  let b := if collapsed then b else b.put CLK_FAILOVER_GAP (min (b.now - b.clk.failAt) 0xFFFE)
  let b := b.modClk (fun c => { c with forcing := false, assertAll := false, resumedAt := b.now })
  let b := b.each phases Block.restorePhase
  let b := b.modClk (fun c => { c with collapsed := false })
  let b := b.each regions (fun b n => b.modR n (fun r => { r with integ := 0 }))
  let b := b.each weaves Block.restartSwap
  if collapsed then
    b.each regions (fun b n => if b.st n = sFaulted || b.wakeIgnored n then b else b.startSoft n)
  else b

/-- The standby loop is ready and in its role: a lost one returns to it 1 ms after it is ready again (R329, R333, R335). -/
def Block.standbyUp (b : Block) : Bool := b.clkReady b.standbyLoop && !b.clk.lost.getLsbD b.standbyLoop

/-- A phase loop that has just become ready, or returned to its role, returns the block from a forcing (R333, R334). A loop
that serves as the active one, or as the standby, is in its role (R329). DEDUCED, log 38. -/
def Block.tryResume (b : Block) : Block :=
  if !b.clk.forcing then b
  else if b.standbyUp then b.resumeDrive b.standbyLoop
  else if b.clkReady b.activeLoop && !b.clk.lost.getLsbD b.activeLoop then b.resumeDrive b.activeLoop
  else b

/-- A source is lost: its ready flag clears, its bit of CLK_MON is set, and what rests on it moves (R328). -/
def Block.loseSource (b : Block) (k : Nat) : Block :=
  if k = kSLO then (b.put CLK_STATUS_SLO_RDY 0).classS srcSLO_STOP 0
  else
    let b := (b.put (readyFld k) 0).modClk (fun c => { c with lost := c.lost ||| (1#8 <<< k), inBand := c.inBand.erase k })
    let b := b.report (lossSrc k) 0
    if k = kXA then
      if b.fld CLK_STATUS_REF = 0 then (b.put CLK_STATUS_REF 3).modClk (fun c => { c with holdAt := b.now }) else b
    else if k = kXB then
      let b := b.put CLK_STATUS_PSYNC_LOCKED 0
      if b.fld CLK_STATUS_REF = 1 then b.leaveRef else b
    else if k = kFIO then
      let b := if b.fld CLK_STATUS_REF = 2 then b.leaveRef else b
      if b.bit CLK_STATUS_SVC_SRC then b else b.serviceClock
    else if k = kPLLE then
      let b := b.engineClockLost
      if b.bit CLK_STATUS_SVC_SRC then b.serviceClock else b
    else if k = b.activeLoop then b.phaseLoopLost
    else if k = kLANE then b.bypassCheck
    else b

/-- CLOCK_SOURCE_LOSS (R328). -/
def execClockSourceLoss (t src : Nat) (s : State) : Host.Outcome State Fault Refusal :=
  s.run (fun b => let b := b.at t; if src < 8 && b.clkReady src then b.loseSource src else b)

/-- SLO_STOP: a class S event for the whole block (R330). -/
def execSloStop (t : Nat) (s : State) : Host.Outcome State Fault Refusal :=
  s.run (fun b => (b.at t).loseSource kSLO)

/-- PH_ACTIVE_LOSS: the active phase loop is lost by name too (Table 13-1). -/
def execPhActiveLoss (t : Nat) (s : State) : Host.Outcome State Fault Refusal :=
  s.run (fun b => let b := b.at t; b.loseSource b.activeLoop)

/-- The expected count of a source over 64 SLO cycles, 8 µs nominal, in hundredths of a cycle (R328, Table 11-1).
DEDUCED, log 37. -/
def Block.expectedCount (b : Block) (k : Nat) : Nat :=
  if k = kFIO then 320000
  else if k = kXA then 8 * b.fld CLK_XCFG_XA_10K
  else if k = kXB then 8 * b.fld CLK_XCFG_XB_10K
  else if k = kPLLE then 960000
  else if b.isV then 2560000 else 3584000

/-- A count outside ±8 % of the expected one is out of band. DEDUCED, log 37. -/
def Block.countOut (b : Block) (k count : Nat) : Bool :=
  let e := b.expectedCount k
  10000 * count > 108 * e || 10000 * count < 92 * e

/-- DELAY_CHAIN_CALIBRATION: against the active phase loop while it runs; otherwise the last calibration holds (R120, R334). -/
def execDelayChainCalibration (t : Nat) (s : State) : Host.Outcome State Fault Refusal :=
  s.run (fun b =>
    let b := b.at t
    if b.clk.forcing || !b.clkReady b.activeLoop then b
    else b.modClk (fun c => { c with chainAt := some b.now, chainLoop := b.fld CLK_STATUS_PH_ACTIVE }))

/-- FREQ_MONITOR_WINDOW: the count of each monitored source, FIO to PLL-S, is judged; a ready source out of band is
lost (R328). DEDUCED, log 37. -/
def execFreqMonitorWindow (t : Nat) (counts : List Nat) (s : State) : Host.Outcome State Fault Refusal :=
  s.run (fun b =>
    let b := b.at t
    if !b.clkReady kSLO then b
    else (List.range 6).foldl (fun b i =>
      let k := i + 1
      if !b.gateOn k (b.fld CLK_STATUS_MODE) && !b.eng.restartReq then b
      else if b.countOut k (counts.getD i 0) then
        if b.clkReady k then b.loseSource k else b.modClk (fun c => { c with inBand := c.inBand.erase k })
      else b.modClk (fun c => { c with inBand := c.inBand.set (fun _ => 0) k (min 2 (c.inBand.get (fun _ => 0) k + 1)) })) b)

/-- The loops have a reference: it is ready, or they are in holdover (R327). -/
def Block.refOk (b : Block) : Bool :=
  match b.fld CLK_STATUS_REF with
  | 0 => b.clkReady kXA
  | 1 => b.clkReady kXB
  | 2 => b.clkReady kFIO
  | _ => true

/-- A source may become ready (R327): enabled in the present mode or restarting from it, found in band by two windows of its
monitor in a row, of which those before it was gated off count, and a loop with a reference. DEDUCED, log 37. -/
def Block.mayBeReady (b : Block) (k : Nat) : Bool :=
  k < 8 && b.aonUp && (b.gateOn k (b.fld CLK_STATUS_MODE) || b.eng.restartReq) &&
  (k = kSLO || k = kLANE || b.clk.inBand.get (fun _ => 0) k = 2) && (k < 4 || k = kLANE || b.refOk)

/-- CLOCK_SOURCE_READY: the ready flag is set, and what waits on the source goes on: the service domain and the first load
(Table 14-7), the service clock, a held forcing, an alignment that XB's gating ended (R327, R334, R337, R341). -/
def Block.sourceReady (b : Block) (k : Nat) : Block :=
  if !b.mayBeReady k || b.clkReady k then b
  else
    let b := (b.put (readyFld k) 1).modClk (fun c => { c with readyAt := c.readyAt.set (fun _ => none) k (some b.now) })
    let b := if k = kFIO && b.img.waitFio then b.startLoad 10000 false false else b
    if k = kFIO || k = kPLLE then (if b.clk.svcStopped then b.serviceClock else b)
    else if k = kPLLP || k = kPLLS then b.tryResume
    else if k = kXB && b.bit CLK_PSYNC_EN && !b.clk.lost.getLsbD kXB then b.put CLK_STATUS_REF 1
    else b

/-- CLOCK_SOURCE_READY (R327). -/
def execClockSourceReady (t src : Nat) (s : State) : Host.Outcome State Fault Refusal :=
  s.run (fun b => (b.at t).sourceReady src)

/-- A source has been ready for a length of time. -/
def Block.readyFor (b : Block) (k ns : Nat) : Bool :=
  b.clkReady k && (match b.clk.readyAt.get (fun _ => none) k with
    | some a => decide (a + ns ≤ b.now)
    | none => false)

/-- SOURCE_RECOVERED: ready again for 1 ms, a lost source is back in its role (R329); alignment to XB is acquired again
(R341), and a forcing that still stands ends with a phase loop (R333). -/
def execSourceRecovered (t src : Nat) (s : State) : Host.Outcome State Fault Refusal :=
  s.run (fun b =>
    let b := b.at t
    if src < 8 && b.clk.lost.getLsbD src && b.readyFor src 1000000 then
      let b := b.modClk (fun c => { c with lost := c.lost &&& ~~~(1#8 <<< src) })
      if src = kXB && b.bit CLK_PSYNC_EN then b.put CLK_STATUS_REF 1
      else if src = kPLLP || src = kPLLS then b.tryResume else b
    else b)

/-- LOOP_REREFERENCE: back to XA once it has been ready for 10 ms, to XB out of a holdover, or to FIO at its end (R331);
on FIO the ring is left (R342). -/
def Block.rereference (b : Block) : Block :=
  let ref := b.fld CLK_STATUS_REF
  let b :=
    if b.bit CLK_PSYNC_EN && ref = 1 then b
    else if ref != 0 && b.readyFor kXA 10000000 then b.put CLK_STATUS_REF 0
    else if ref = 3 then
      if b.bit CLK_CTL_REF_AUTO && b.clkReady kXB then b.put CLK_STATUS_REF 1
      else if b.clk.holdAt + 10000000 ≤ b.now && b.clkReady kFIO then b.put CLK_STATUS_REF 2 else b
    else b
  b.bypassCheck

/-- LOOP_REREFERENCE (R331). -/
def execLoopRereference (t : Nat) (s : State) : Host.Outcome State Fault Refusal :=
  s.run (fun b => (b.at t).rereference)

/-- FAILOVER_RESUME: the selector moves the weave domain to the standby, which exchanges the roles (R333, R334). -/
def execFailoverResume (t : Nat) (s : State) : Host.Outcome State Fault Refusal :=
  s.run (fun b =>
    let b := b.at t
    if b.clk.forcing && !b.clk.collapsed && b.standbyUp then b.resumeDrive b.standbyLoop else b)

/-- PHASE_CLOCK_COLLAPSE: no phase drive 2 µs after the detection (R334). -/
def execPhaseClockCollapse (t : Nat) (s : State) : Host.Outcome State Fault Refusal :=
  s.run (fun b =>
    let b := b.at t
    if b.clk.forcing && !b.clk.collapsed && b.clk.failAt + 2000 ≤ b.now then
      let b := (b.modClk (fun c => { c with collapsed := true })).put CLK_FAILOVER_GAP 0xFFFF
      let b := b.each regions (fun b n => if b.st n = sDark || b.st n = sFaulted then b else b.toDark n)
      (b.report srcCOLLAPSE 0).stopCheck
    else b)

/-- PH_SWAP of a write of CLK_CTL: the roles of the phase loops are exchanged when the standby is ready (R335).
DESIGN CHOICE, log 39. -/
def Block.phSwap (b : Block) : Block :=
  if b.standbyUp && !b.clk.forcing then b.put CLK_STATUS_PH_ACTIVE (1 - b.fld CLK_STATUS_PH_ACTIVE)
  else b.put CLK_MON_SW_REFUSED 1

/-- SVC_SWAP of a write of CLK_CTL: the service domain moves to the other source when it is ready (R335).
DESIGN CHOICE, log 39. -/
def Block.svcSwap (b : Block) : Block :=
  if b.clkReady (if b.bit CLK_STATUS_SVC_SRC then kFIO else kPLLE) then
    b.put CLK_STATUS_SVC_SRC (1 - b.fld CLK_STATUS_SVC_SRC)
  else b.put CLK_MON_SW_REFUSED 1

/-- A write of CLK_CTL: REF_AUTO is stored, and each switch asked for is made or refused (R335, R345). -/
def Block.clkCtl (b : Block) (data : Word) : Block :=
  let b := b.put CLK_CTL_REF_AUTO (Fld.get CLK_CTL_REF_AUTO data)
  let b := if data.getLsbD 0 then b.phSwap else b
  if data.getLsbD 1 then b.svcSwap else b

/-- PH_SWAP (R335). -/
def execPhSwap (data : Word) (s : State) : Host.Outcome State Fault Refusal :=
  s.run (fun b => b.hostWrite CLK_CTL_REF_AUTO.base data Block.clkCtl)

/-- SVC_SWAP (R335). -/
def execSvcSwap (data : Word) (s : State) : Host.Outcome State Fault Refusal :=
  s.run (fun b => b.hostWrite CLK_CTL_REF_AUTO.base data Block.clkCtl)

/-- N = switching frequency / XB frequency, when it is an integer the build accepts (R340). -/
def Block.alignN (b : Block) : Option Nat :=
  let xb := b.fld CLK_XCFG_XB_10K
  let f := if b.isV then 10000 else 14000
  if 1000 ≤ xb && xb ≤ 10000 && f % xb = 0 && 1 ≤ f / xb && f / xb ≤ 16 then some (f / xb) else none

/-- Alignment ends: the loops return to the reference of R331, and spread modulation is no longer suspended. -/
def Block.endAlign (b : Block) : Block :=
  let was := b.bit CLK_PSYNC_EN
  let b := ((b.put CLK_PSYNC_EN 0).put CLK_PSYNC_N 0).put CLK_STATUS_PSYNC_LOCKED 0
  let b := b.put CLK_STATUS_SSC_SUPPR 0
  if was && b.fld CLK_STATUS_REF = 1 then b.leaveRef else b

/-- A write of CLK_PSYNC: OFFSET is stored; with EN = 1 the alignment is accepted or refused, with EN = 0 it ends (R340,
R343, R349). DESIGN CHOICE, log 39. -/
def Block.psyncWrite (b : Block) (data : Word) : Block :=
  let b := if data.getLsbD 30 then b.put CLK_PSYNC_REFUSED 0 else b
  let b := b.put CLK_PSYNC_OFFSET (Fld.get CLK_PSYNC_OFFSET data)
  if !data.getLsbD 31 then b.endAlign
  else
    match b.alignN with
    | some n =>
      if b.clkReady kXB then
        ((((b.put CLK_PSYNC_EN 1).put CLK_PSYNC_N n).put CLK_STATUS_SSC_SUPPR 1).put CLK_STATUS_REF 1).bypassCheck
      else b.endAlign.put CLK_PSYNC_REFUSED 1
    | none => b.endAlign.put CLK_PSYNC_REFUSED 1

/-- PSYNC_ENABLE (R340). -/
def execPsyncEnable (data : Word) (s : State) : Host.Outcome State Fault Refusal :=
  s.run (fun b => b.hostWrite CLK_PSYNC_EN.base data Block.psyncWrite)

/-- PSYNC_LOCK: the error has stayed within ±2 fine steps for 1,024 periods (R340). -/
def execPsyncLock (s : State) : Host.Outcome State Fault Refusal :=
  s.run (fun b =>
    if b.bit CLK_PSYNC_EN && b.clkReady kXB && b.fld CLK_STATUS_REF = 1 then b.put CLK_STATUS_PSYNC_LOCKED 1 else b)

/-- A write of CLK_XCFG: stored, or ignored while alignment or an XB reference is in force (R343). -/
def Block.xcfgWrite (b : Block) (data : Word) : Block :=
  if b.bit CLK_PSYNC_EN || b.fld CLK_STATUS_REF = 1 then b.put CLK_MON_SW_REFUSED 1
  else b.put CLK_XCFG_XB_10K (Fld.get CLK_XCFG_XB_10K data)

/-- XB_10K_WRITE (R343). -/
def execXb10kWrite (data : Word) (s : State) : Host.Outcome State Fault Refusal :=
  s.run (fun b => b.hostWrite CLK_XCFG_XB_10K.base data Block.xcfgWrite)

/-- The length in ns of a half of the spread triangle at a RATE: half of the nominal period, × (1 + v/256) for a dither value v, 0
without dither (R339, R476). -/
def sscHalfOf (rate : Nat) (v : Int) : Rat := 50000 / ((rate + 1 : Nat) : Rat) * (1 + (v : Rat) / 256)

/-- SSC_TURNING_POINT: the settings written come into force, and with DITHER the value last latched, −16..15, sets the length of the
next half (R339, R476); none while the spread is suspended. -/
def execSscTurningPoint (s : State) : Host.Outcome State Fault Refusal :=
  s.run (fun b =>
    if b.bit CLK_STATUS_SSC_SUPPR then b
    else b.modClk (fun c => { c with
      sscDepth := min (b.fld CLK_SSC_DEPTH) 16, sscRate := b.fld CLK_SSC_RATE, sscDither := b.bit CLK_SSC_DITHER
      sscHalf := sscHalfOf (b.fld CLK_SSC_RATE) (if b.bit CLK_SSC_DITHER then c.sscDraw.toInt else 0) }))

end Sys2Proof.Machine
end

