-- ==== Sys2Proof/Machine/Converters.lean ====
section
/-! DEFINITION. The sense converters (chapter 12): references, region, phase and auxiliary conversions, the converter
check with its arbiter, the stages' gain and trigger settings, and system calibration. Voltages are codes of 0.5 mV. -/

namespace Sys2Proof.Machine



/-- The reference a group converts against: the selected one, and the bandgap while a calibration point runs (R353, R364). -/
def Block.refInUse (b : Block) (g : Nat) : Nat := if b.bit ADC_CAL_CTL_CAL_BUSY then 0 else b.fld (refSel g)

/-- The choices a group allows (Table 12-2). -/
def refAllowed (g sel : Nat) : Bool :=
  sel = 0 || (sel = 1 && g != 1) || (sel = 2 && g = 3)

/-- Every region is DARK or DARK-FAULTED. -/
def Block.everyDark (b : Block) : Bool := regions.all (fun n => b.st n = sDark || b.st n = sFaulted)

/-- One group's selection in a write of ADC_REF (R353). -/
def Block.selectRef (b : Block) (data : Word) (g : Nat) : Block :=
  let sel := Fld.get (refSel g) data
  if sel = b.fld (refSel g) then b
  else if !refAllowed g sel || (g < 2 && !b.everyDark) then b.put ADC_STATUS_REF_REFUSED 1
  else if b.bit ADC_CAL_CTL_CAL_BUSY then b.put (refSel g) sel
  else (b.put (refSel g) sel).setSettled g false

/-- A write of ADC_REF (R353, R354, R369). -/
def Block.refWrite (b : Block) (data : Word) : Block :=
  let b := b.put ADC_REF_EXT_MV (Fld.get ADC_REF_EXT_MV data)
  (b.each (List.range 4) (fun b g => b.selectRef data g)).noteWindow

/-- ADC_REF_WRITE (R353). -/
def execAdcRefWrite (data : Word) (s : State) : Host.Outcome State Fault Refusal :=
  s.run (fun b => b.hostWrite ADC_REF_EXT_MV.base data Block.refWrite)

/-- REF_SETTLED: the settling time of the group's reference has passed (R354). -/
def execRefSettled (g : Nat) (s : State) : Host.Outcome State Fault Refusal :=
  s.run (fun b => if g < 4 then (b.setSettled g true).noteWindow else b)

/-- EXT_REF_CHECK: AIN7 outside ±2 % of EXT_MV sends every group that uses it back to the bandgap (R354, R369). -/
def Block.extCheck (b : Block) (ain7 : Nat) : Block :=
  let ext := clampN 1000 1250 (b.fld ADC_REF_EXT_MV)
  let users := (List.range 4).filter (fun g => b.refInUse g = 1)
  if users.isEmpty || ((ain7 : Int) - ext).natAbs * 50 ≤ ext then b
  else ((b.each users (fun b g => (b.put (refSel g) 0).setSettled g false)).report srcREF_FAULT 0).noteWindow

/-- EXT_REF_CHECK (R354). -/
def execExtRefCheck (t ain7mV : Nat) (s : State) : Host.Outcome State Fault Refusal :=
  s.run (fun b => (b.at t).extCheck ain7mV)

/-- Rounding of a quotient to the nearest integer, ties to even. -/
def roundEven (num : Int) (den : Nat) : Int :=
  let q := num / (den : Int)
  let r := 2 * (num % (den : Int))
  if r < den then q else if r > den then q + 1 else if q % 2 = 0 then q else q + 1

/-- The value of a code of physical converter `c` (R358). DEDUCED, log 40. -/
def Block.calibrated (b : Block) (c code : Nat) : Nat :=
  (clampI 0 4095 (roundEven ((16 * (code : Int) - signed 16 (b.fld ADC_COEF_OFFSET c)) * (b.fld ADC_COEF_GAIN c : Nat)) 524288)).toNat

/-- Two readings of the difference from the reference agree within 9 mV. -/
def agree9 (x y : Int) : Bool := decide ((x - y).natAbs ≤ 18)

/-- The converter check runs: RUN, no droop episode, window code within 2..61, and no WIN_FAIL (R361, R389). -/
def Block.checkRuns (b : Block) (n : Nat) : Bool :=
  let w := b.fld REG_VSENSE_WINDOW n
  b.st n = sRun && !(b.R n).episode && 2 ≤ w && w ≤ 61 && !(b.R n).winFail

/-- A remote reading reaches the region: the converter check, VOUT, the settled test of R122 and the 16 µs of R110. -/
def Block.remoteReading (b : Block) (n v : Nat) : Block :=
  let bad := b.checkRuns n && !agree9 v (b.windowVolts n)
  let w := weaveOf n
  let judged := (b.W w).arb = some n || (b.W w).standDue && b.fld ADC_SPARE_SERVES w = n
  let run := if bad then (b.R n).convRun + 1 else if judged then (b.R n).convRun else 0
  let b := b.modR n (fun r => { r with convRun := run, lastConv := v })
  let v := if run > 0 || (b.R n).convBad then b.windowVolts n else v
  let b := b.put REG_VSENSE_VOUT v n
  let ref := b.reference n
  let near := decide (((v : Int) - ref).natAbs ≤ 10)
  let low := b.st n = sRun && 100 * v < 85 * ref
  b.modR n (fun r => { r with remote := v, clearSince := if b.aboveThreshold n v then r.clearSince else b.now, settled := r.settled && near, convsInTick := r.convsInTick + 1
                              uvAt := if low then (if r.uvAt.isSome then r.uvAt else some b.now) else none })

/-- The region a region sense converter serves: its own unless a spare has stood in for it, or the spare's (R12, R361, R374). -/
def Block.servedBy (b : Block) (c : Nat) : Option Nat :=
  if c < 256 then
    if b.fld ADC_SPARE_STATE (weaveOf c) ≥ 2 && b.fld ADC_SPARE_SERVES (weaveOf c) = c then none else some c
  else if b.fld ADC_SPARE_STATE (c - 256) = 2 then some (b.fld ADC_SPARE_SERVES (c - 256)) else none

/-- A region sense conversion: every 64th reads the local tap, and every one does on local fallback but while the probe at clearing
waits or runs, which needs the remote pair (R111, R113, R114, R355); a result against an unsettled reference is discarded (R354).
DEDUCED, log 40. -/
def Block.regionConversion (b : Block) (c code : Nat) : Block :=
  match b.servedBy c with
  | none => b
  | some n =>
    let tapSlot := (b.R n).convs + 1 ≥ 64
    let b := b.modR n (fun r => { r with convs := if tapSlot then 0 else r.convs + 1 })
    if !b.refSettled 0 then b.modR n (fun r => { r with uvAt := none })
    else
      let v := b.calibrated c code
      let local' := b.bit REG_STATUS_SENSE_SRC n
      let probing := local' && (b.R n).clearProbe && !tapSlot
      let b := if !(tapSlot || local' && !probing) then b.modR n (fun r => { r with last16 := (v :: r.last16).take 16 })
        else b.modR n (fun r => { r with tap := v, tapNew := r.tapNew || tapSlot, tapEp := if tapSlot then r.episode else r.tapEp })
      if tapSlot && !local' || probing then b
      else
        let remote := (b.R n).remote
        let b := b.remoteReading n v
        if local' then b.modR n (fun r => { r with remote := remote }) else b

/-- REGION_SENSE_CONVERSION (R355). -/
def execRegionSenseConversion (c code : Nat) (s : State) : Host.Outcome State Fault Refusal :=
  s.run (fun b => if c < 272 then b.regionConversion c (code % 4096) else b)

/-- CONVERTER_CHECK_FAIL: 256 failing conversions in a row bring in the weave's idle spare as an arbiter; with none the
region goes on through its window converter, as it does when the spare that stands in fails (R361, R362, R374). -/
def Block.converterFails (b : Block) (n : Nat) : Block :=
  let w := weaveOf n
  let st := b.fld ADC_SPARE_STATE w
  if (b.R n).convRun < 256 || (b.R n).convBad then b
  else if st = 0 then ((b.put ADC_SPARE_STATE 1 w).put ADC_SPARE_SERVES n w).modW w (fun x => { x with arb := some n })
  else if st = 1 then b
  else
    let b := if st = 2 && b.fld ADC_SPARE_SERVES w = n then b.put ADC_SPARE_STATE 3 w else b
    (b.modR n (fun r => { r with convBad := true })).report srcADC_NO_SPARE n

/-- CONVERTER_CHECK_FAIL (R361). -/
def execConverterCheckFail (n : Nat) (s : State) : Host.Outcome State Fault Refusal :=
  s.run (fun b => if n < 256 then b.converterFails n else b)

/-- The spare converter of a weave stands in for the region it arbitrated (R12, R361). DEDUCED, log 41. -/
def Block.converterStandIn (b : Block) (w : Nat) : Block :=
  if !(b.W w).standDue then b
  else
    let n := b.fld ADC_SPARE_SERVES w
    let b := (b.put ADC_SPARE_STATE 2 w).modW w (fun x => { x with standDue := false })
    let b := b.modR n (fun r => { r with convRun := 0, convs := 0 })
    (b.logWear 2 n none).logWear 2 (256 + w) (some n)

/-- ARBITER_DONE: the arbiter's reading settles which converter failed (R361); one against an unsettled reference is discarded, and
the arbitration goes on (R354). DEDUCED, log 41. -/
def Block.arbiterDone (b : Block) (w code : Nat) : Block :=
  match (b.W w).arb with
  | none => b
  | some n =>
    if !b.refSettled 0 then b else
    let v := b.calibrated (256 + w) code
    let b := b.modW w (fun x => { x with arb := none })
    let free (b : Block) := (b.put ADC_SPARE_STATE 0 w).modR n (fun r => { r with convRun := 0 })
    if agree9 v (b.windowVolts n) then
      let b := (b.modW w (fun x => { x with standDue := true })).report srcADC_FAIL n
      if b.engineRunning then b else b.converterStandIn w
    else if agree9 v (b.R n).lastConv then
      ((free b).modR n (fun r => { r with winFail := true })).report srcWIN_FAIL n
    else (free b).report srcADC_MISMATCH n

/-- ARBITER_DONE (R361). -/
def execArbiterDone (t w code : Nat) (s : State) : Host.Outcome State Fault Refusal :=
  s.run (fun b => if w < 16 then (b.at t).arbiterDone w (code % 4096) else b)

/-- A valid reply carries GAIN_T: markers, odd parity, and the range of R360. -/
def gainReply (r1 r2 : Nat) : Option Nat :=
  let g := r1 % 256 * 16 + r2 / 16 % 16
  let ones := ((List.range 12).filter (fun i => g / 2 ^ i % 2 = 1)).length + r2 / 8 % 2
  if r1 / 256 = 2 && r2 / 256 = 1 && ones % 2 = 1 && 0x733 ≤ g && g ≤ 0x8CD then some g else none

/-- The read of a stage's gain is answered: taken, or retried; after three retries 0x800 and CAL_FAIL (R360). -/
def Block.gainAnswer (b : Block) (p r1 r2 : Nat) : Block :=
  match gainReply r1 r2 with
  | some g => b.modP p (fun x => { x with gainT := g, gainTries := 0 })
  | none =>
    if (b.P p).gainTries < 3 then b.modP p (fun x => { x with gainTries := x.gainTries + 1 })
    else
      let b := b.modP p (fun x => { x with gainT := 0x800, gainTries := 0 })
      let w := weaveOfPhase p
      if (b.W w).run.isSome && (b.W w).spare = p && b.fld WV_SWAP_STAGE w = stSelect then b.calFail w
      else b.phaseFault p srcCAL_FAIL



/-- GAIN_T_READ: an idle stage is sent its first read, and answers in the next two periods (R360). DEDUCED, log 41. -/
def execGainTRead (t p r1 r2 : Nat) (s : State) : Host.Outcome State Fault Refusal :=
  s.run (fun b =>
    let b := b.at t
    if b.stageIdle p then (b.modP p (fun x => { x with gainTries := 0, replies := 2 })).gainAnswer p r1 r2 else b)

/-- GAIN_T_RETRY: a retry after a reply that was not valid (R360). -/
def execGainTRetry (t p r1 r2 : Nat) (s : State) : Host.Outcome State Fault Refusal :=
  s.run (fun b =>
    let b := b.at t
    if b.stageIdle p && (b.P p).gainTries > 0 then (b.modP p (fun x => { x with replies := 2 })).gainAnswer p r1 r2 else b)



/-- A write of ADC_PHTRIG: in Yalga-P in force from each phase's next period; in Yalga-V each stage waits for its
configuration command (R357). -/
def Block.phtrigWritten (b : Block) : Block :=
  if b.isV then (b.each (phases.filter b.populated) (fun b p => b.modP p (fun x => { x with trigDue := true }))).notePend
  else b.each (phases.filter b.populated) (fun b p => b.modP p (fun x => { x with trigDue := true }))

/-- Odd parity over eleven symbols (R357). -/
def trigParityOk (s : BitVec 11) : Bool := (List.range 11).foldl (fun p i => p ^^ s.getLsbD i) false

/-- The symbols of a configuration command, the first in bit 10: EVENT, DELAY from its most significant bit, and odd parity
(R357). -/
def trigSymbols (event delay : Nat) : BitVec 11 :=
  let v := 512 * (event % 4) + 2 * (delay % 256)
  BitVec.ofNat 11 (if trigParityOk (BitVec.ofNat 11 v) then v else v + 1)

/-- The low-side pulses of a configuration command by their widths in phase-clock steps: a start pulse of 10, and 1 or 3 for each
symbol (R71, R357). -/
def trigPulses (s : BitVec 11) : List Nat := 10 :: (List.range 11).map (fun i => if s.getLsbD (10 - i) then 3 else 1)

/-- A Yalga-V stage that is PARKED, or the spare of a swap-in at SELECT, with both switches off and ZC set, is sent the setting, and
reads it as `symbols`; its latch keeps the old one on bad parity (R357). -/
def Block.phtrigConfig (b : Block) (p : Nat) (symbols : BitVec 11) : Block :=
  let w := weaveOfPhase p
  let spare := (b.W w).run.isSome && (b.W w).spare = p && b.fld WV_SWAP_STAGE w = stSelect
  if b.isV && b.stageIdle p && (b.cond p = cParked || spare) then
    let ok := trigParityOk symbols
    (b.modP p (fun x => { x with
      trigDue := false, trigCmd := trigPulses (trigSymbols (b.fld ADC_PHTRIG_EVENT) (b.fld ADC_PHTRIG_DELAY))
      sentEvent := b.fld ADC_PHTRIG_EVENT, sentDelay := b.fld ADC_PHTRIG_DELAY
      trigEvent := if ok then symbols.toNat / 512 else x.trigEvent
      trigDelay := if ok then symbols.toNat / 2 % 256 else x.trigDelay })).notePend
  else b

/-- PHTRIG_CONFIG (R357). -/
def execPhtrigConfig (p : Nat) (symbols : BitVec 11) (s : State) : Host.Outcome State Fault Refusal :=
  s.run (fun b => b.phtrigConfig p symbols)

/-- Twice the median of four readings. -/
def median4 (xs : List Nat) : Nat :=
  xs.sum - xs.foldl max 0 - xs.foldl min 4096

/-- The cross-check of AUX0..AUX3: 16 readings in a row more than 60 mV from the median mark the converter (R363). -/
def Block.auxCheck (b : Block) (i : Nat) : Block :=
  if i ≥ 4 || !(List.range 4).all (fun q => b.bit ADC_AUX_VALID q) then b
  else
    let m := median4 ((List.range 4).map (fun q => b.fld ADC_AUX_VALUE q))
    let off := decide ((2 * (b.fld ADC_AUX_VALUE i : Int) - m).natAbs > 240)
    let run := if off then b.adc.auxRun.get (fun _ => 0) i + 1 else 0
    let b := b.modAdc (fun a => { a with auxRun := a.auxRun.set (fun _ => 0) i (min run 16) })
    if run ≥ 16 && !b.bit ADC_AUX_FAILED i then (b.put ADC_AUX_FAILED 1 i).report srcAUX_FAIL i else b

/-- The voltage of a result of an auxiliary converter, in units of 0.5 mV: a ratiometric one is that fraction of VIN in the
converter's quadrant (R354, R363). -/
def Block.auxVolts (b : Block) (i v : Nat) : Rat :=
  if i ≥ 4 && b.refInUse 3 = 2 then (v * b.vin (b.auxFld ADC_AUXTRIG_QUAD i) : Nat) / (4096 : Rat) else v

/-- AUX_CONVERSION: a conversion that a trigger started ends, and its calibrated value is reported, unless its group's reference is
settling (R352, R354, R356, R358). DEDUCED, log 40. -/
def Block.auxConversion (b : Block) (i code : Nat) : Block :=
  if !b.auxStarted i then b
  else
    let b := b.modAdc (fun a => { a with auxBusy := a.auxBusy.erase i })
    if !b.refSettled (if i < 4 then 2 else 3) then b
    else
      let v := b.calibrated (272 + i) code
      let b := (b.put ADC_AUX_RAW code i).put ADC_AUX_VALUE v i
      let b := b.modAdc (fun a => { a with
        volts := a.volts.set (fun _ => 0) i (b.auxVolts i v), vinFresh := if i < 4 then a.vinFresh ||| (1#4 <<< i) else a.vinFresh })
      ((b.put ADC_AUX_VALID 1 i).auxCheck i).noteWindow

/-- AUX_CONVERSION (R356). -/
def execAuxConversion (t i code : Nat) (s : State) : Host.Outcome State Fault Refusal :=
  s.run (fun b => if i < 16 then (b.at t).auxConversion i (code % 4096) else b)

/-! System calibration (R364, R365). -/



/-- A write of ADC_CAL_CTL: VFULL and POINT are stored, flags written with 1 clear, and START runs the point or is
refused (R364, R370). -/
def Block.calWrite (b : Block) (data : Word) : Block :=
  let err := b.fld ADC_CAL_CTL_CAL_ERR
  let b := b.put ADC_CAL_CTL_CAL_ERR ((BitVec.ofNat 3 err &&& ~~~(BitVec.ofNat 3 (Fld.get ADC_CAL_CTL_CAL_ERR data))).toNat)
  let b := if data.getLsbD 28 then b.put ADC_CAL_CTL_CAL_DONE 0 else b
  let b := (b.put ADC_CAL_CTL_VFULL (Fld.get ADC_CAL_CTL_VFULL data)).put ADC_CAL_CTL_POINT (Fld.get ADC_CAL_CTL_POINT data)
  if !data.getLsbD 31 then b
  else
    let st := b.fld ENG_STATUS_STATE
    if !b.everyDark || !(st = eStopped || st = eHalted) || b.bit ADC_CAL_CTL_CAL_BUSY then b.put ADC_CAL_CTL_CAL_ERR 1
    else
      ((b.put ADC_CAL_CTL_CAL_BUSY 1).modAdc (fun a => { a with full := data.getLsbD 30, vfull := b.fld ADC_CAL_CTL_VFULL })).calRefs

/-- CAL_ZERO_POINT (R364). -/
def execCalZeroPoint (data : Word) (s : State) : Host.Outcome State Fault Refusal :=
  s.run (fun b => b.hostWrite ADC_CAL_CTL_POINT.base data Block.calWrite)

/-- CAL_FULL_POINT (R364). -/
def execCalFullPoint (data : Word) (s : State) : Host.Outcome State Fault Refusal :=
  s.run (fun b => b.hostWrite ADC_CAL_CTL_POINT.base data Block.calWrite)

/-- The mean of converter `c` in a point's results. -/
def meanOf (means : List CalMean) (c : Nat) : Nat :=
  match means.find? (fun m => m.conv = c) with
  | some m => m.mean
  | none => 0

/-- GAIN of a converter from its two means in 1/16 code; none where they do not rise (R364). -/
def calGain (vfull z f : Nat) : Option Int :=
  if f ≤ z then none else some (nearest 42 (524288 * (vfull : Int)) (f - z))

/-- The refusal code of a FULL point's results, lowest first; 0 when they pass (R365, Table 12-7). -/
def calError (vfull : Nat) (zeroOk : Bool) (zero : Nat → Nat) (means : List CalMean) : Nat :=
  let cs := List.range 288
  if !zeroOk then 5
  else if vfull = 0 || cs.any (fun c => match calGain vfull (zero c) (meanOf means c) with
      | some g => g < 31130 || g > 34406
      | none => true) then 2
  else if cs.any (fun c => zero c > 320) then 3
  else if means.any (fun m => m.spread > 8) then 4
  else 0

/-- CAL_POINT_DONE: with every reference settled, a ZERO point is stored; a FULL point's coefficients are computed and checked, then
written or refused (R364, R365). DEDUCED, log 41. -/
def Block.calDone (b : Block) (means : List CalMean) : Block :=
  if !b.bit ADC_CAL_CTL_CAL_BUSY || !(List.range 4).all b.refSettled then b
  else
    let b := (b.put ADC_CAL_CTL_CAL_BUSY 0).calRefs
    if !b.adc.full then
      if means.any (fun m => m.spread > 8) then b.put ADC_CAL_CTL_CAL_ERR 4
      else b.modAdc (fun a => { a with zero := SMap.tab (fun _ => 0) (meanOf means) (List.range 288), zeroOk := true })
    else
      let zero := b.adc.zero.get (fun _ => 0)
      let err := calError b.adc.vfull b.adc.zeroOk zero means
      if err != 0 then b.put ADC_CAL_CTL_CAL_ERR err
      else
        let b := b.each (List.range 288) (fun b c =>
          match calGain b.adc.vfull (zero c) (meanOf means c) with
          | some g => (b.put ADC_COEF_GAIN g.toNat c).put ADC_COEF_OFFSET (zero c) c
          | none => b)
        let shut := !b.flashMayStart
        let b := (b.put ADC_CAL_CTL_CAL_DONE 1).modAdc (fun a => { a with journalDue := true, journalWait := a.journalWait || shut })
        { b with img := { b.img with pend := b.img.pend ||| 4 } }

/-- CAL_POINT_DONE (R365). -/
def execCalPointDone (means : List CalMean) (s : State) : Host.Outcome State Fault Refusal :=
  s.run (fun b => if means.length = 288 then b.calDone means else b)

end Sys2Proof.Machine
end

