-- ==== Sys2Proof/Machine/EngArray.lean ====
section
/-! DEFINITION. The engine's array instructions, accumulators and reductions (R175, R176, R180, R194, R223 to R225). -/

namespace Sys2Proof.Machine

/-- The scale of accumulator sums: exact for W36 × W36 and so for every product. -/
def accScale : Nat := 306

/-- The place of a cell: accumulator `a` of slice `q`, output `o`, lane `i`. Which of the 1,024 cells an output and lane occupy R173
leaves open; here each pair has a cell of its own: DESIGN CHOICE, log 72. -/
def cellKey (q a o i : Nat) : Nat := ((q * 4 + a) * 1024 + o) * 64 + i

/-- A cell. -/
def Eng.cell (e : Eng) (q a o i : Nat) : Cell := e.acc.get (fun _ => {}) (cellKey q a o i)

/-- A cell written. -/
def Eng.setCell (e : Eng) (q a o i : Nat) (c : Cell) : Eng :=
  { e with acc := e.acc.set (fun _ => {}) (cellKey q a o i) c }

/-- A product added to a cell: exact, with the marks of its magnitude; a NaN operand sets NAN and adds nothing
(R223). `s` is the product's scale. -/
def Cell.addProduct (c : Cell) (x y : Option Int) (s : Nat) : Cell :=
  match x, y with
  | some a, some d =>
    let p := a * d
    let m := p.natAbs
    { c with
      sum := c.sum + p * 2 ^ (accScale - s)
      bigC18 := c.bigC18 || decide (m > 4293918720 * 2 ^ s)
      bigW36 := c.bigW36 || decide (m > (2 ^ 28 - 1) * 2 ^ 100 * 2 ^ s)
      bigI16 := c.bigI16 || decide (m > 32767 * 2 ^ s) }
  | _, _ => { c with nan := true }

/-- A dot product added to every cell of some outputs and lanes of accumulator `a` in every slice: `prods q o i` lists
the pairs of operands; with AM = 0 each cell is first set to zero (R176). -/
def Block.accumulate (b : Block) (a : Nat) (am : Bool) (outs lanesN s : Nat)
    (prods : Eng → Nat → Nat → Nat → List (Option Int × Option Int)) : Block :=
  let e := b.eng
  b.modEng (fun e0 => slices.foldl (fun e1 q => (List.range outs).foldl (fun e2 o => (List.range lanesN).foldl (fun e3 i =>
    let start := if am then e.cell q a o i else {}
    e3.setCell q a o i ((prods e q o i).foldl (fun c p => c.addProduct p.1 p.2 s) start)) e2) e1) e0)

/-- Input element `k` of a lane (R175). -/
def Eng.input (e : Eng) (q ba k i : Nat) : Option Int := fmtC18.read (e.value q 0 (ba + k / 4) (k % 4) i)

/-- Input element `k` of a lane in MVW (R175). -/
def Eng.inputW (e : Eng) (q ba k i : Nat) : Option Int := fmtW36.read (e.value q 1 (ba + k / 2) (k % 2) i)

/-- A row of coefficients as W36 lanes: lanes 0..31 in the first row, 32..63 in the second (R171). -/
def Eng.coefW (e : Eng) (q r i : Nat) : Option Int := fmtW36.read (laneOf (e.memRow 2 q (r + i / 32)) 36 (i % 32))

/-- The products of an output of MVB (Table 6-6). -/
def mvbProducts (o : XOp) (base : Nat → Nat) (e : Eng) (q out i : Nat) : List (Option Int × Option Int) :=
  let per := 16 * 2 ^ o.sh
  let t := out / per
  let w := out % per
  (List.range o.k).map (fun k =>
    (fmtT10.read (e.weight (base q + 2 ^ o.sh * (t * o.k + k) + w / 16) (w % 16)), e.input q o.ba k i))

/-- The products of an output of MVR; inputs beyond K take weight 0 (Table 6-6, R175). -/
def mvrProducts (o : XOp) (base : Nat → Nat) (e : Eng) (q m i : Nat) : List (Option Int × Option Int) :=
  let chunks := (o.k + 15) / 16
  (List.range o.k).map (fun k =>
    (fmtT10.read (e.weight (base q + m * chunks + k / 16) (k % 16)), e.input q o.ba k i))

/-- The products of an output of MVP (Table 6-6). -/
def mvpProducts (o : XOp) (base : Nat → Nat) (e : Eng) (q out i : Nat) : List (Option Int × Option Int) :=
  let t := out / 8
  (List.range o.k).map (fun k =>
    (fmtC18.read (laneOf (e.memRow 2 q (base q + 8 * (t * o.k + k) + out % 8)) 18 i), e.input q o.ba k i))

/-- The products of an output of MVW (Table 6-6). -/
def mvwProducts (o : XOp) (base : Nat → Nat) (e : Eng) (q m i : Nat) : List (Option Int × Option Int) :=
  (List.range o.k).map (fun k => (e.coefW q (base q + 2 * (m * o.k + k)) i, e.inputW q o.ba k i))

/-- The state code of array `a` (Table 6-26). -/
def arrayState (a : Nat) : Fld := { base := ENG_ARRAY_AS0.base, hi := 2 * a + 1, lo := 2 * a }

/-- A4 is a spare that shadows (Table 6-26), and not under its self-test (R194). -/
def Block.shadowing (b : Block) : Bool := b.fld (arrayState 4) = 1 && b.eng.suspect.isNone

/-- The shadow's check of an array instruction mismatches: the tick is marked for abort (R194). DEDUCED, log 22. -/
def Block.shadowCheck (b : Block) (mismatch : Bool) : Block :=
  if mismatch && b.shadowing && b.eng.run = .tick then
    (b.report srcENG_ARRAY_MISMATCH (b.tickno % 4)).modEng (fun e => { e with mismatch := true })
  else b

/-- MVB (R175). -/
def execMvb (o : XOp) (ecc : List EccHit) (mismatch : Bool) (s : State) : Host.Outcome State Fault Refusal :=
  s.run (fun b => b.engine (.mvb o ecc mismatch) (eccStall ecc) (fun b =>
    let b := b.eccRead 4 ecc
    (b.accumulate o.ac o.am o.mvbOuts o.mvbLanes (fmtT10.scale + fmtC18.scale)
      (mvbProducts o (fun q => b.scalar q o.sb))).shadowCheck mismatch))

/-- MVR (R175). -/
def execMvr (o : XOp) (ecc : List EccHit) (mismatch : Bool) (s : State) : Host.Outcome State Fault Refusal :=
  s.run (fun b => b.engine (.mvr o ecc mismatch) (eccStall ecc) (fun b =>
    let b := b.eccRead 4 ecc
    (b.accumulate o.ac o.am o.mt (16 * o.ng) (fmtT10.scale + fmtC18.scale)
      (mvrProducts o (fun q => b.scalar q o.sb))).shadowCheck mismatch))

/-- MVP (R175). -/
def execMvp (o : XOp) (ecc : List EccHit) (mismatch : Bool) (s : State) : Host.Outcome State Fault Refusal :=
  s.run (fun b => b.engine (.mvp o ecc mismatch) (eccStall ecc) (fun b =>
    let b := b.eccRead 2 ecc
    (b.accumulate o.ac o.am (8 * o.mt) (16 * o.ng) (2 * fmtC18.scale)
      (mvpProducts o (fun q => b.scalar q o.sb))).shadowCheck mismatch))

/-- MVW (R175). -/
def execMvw (o : XOp) (ecc : List EccHit) (mismatch : Bool) (s : State) : Host.Outcome State Fault Refusal :=
  s.run (fun b => b.engine (.mvw o ecc mismatch) (eccStall ecc) (fun b =>
    let b := b.eccRead 2 ecc
    (b.accumulate o.ac o.am o.mt (16 * o.ng) (2 * fmtW36.scale)
      (mvwProducts o (fun q => b.scalar q o.sb))).shadowCheck mismatch))

/-- What ACRD gives for a cell: its sum rounded once, or the NaN of TY, and the flags of its marks (R224). -/
def laneCell (ty : Nat) (c : Cell) : LRes :=
  let big := if ty = 0 then c.bigC18 else if ty = 1 then c.bigW36 else c.bigI16
  if c.nan then { bits := nanTy ty, inv := true, ovf := big }
  else
    let r := laneExact ty c.sum accScale
    { r with ovf := r.ovf || big }

/-- ACRD: outputs FN + j to rows j, or two outputs in W36 (R224). -/
def execAcrd (o : ROp) (s : State) : Host.Outcome State Fault Refusal :=
  s.run (fun b => b.engine (.acrd o) 0 (fun b => b.elementwise o.ty o.bd (fun e q v i =>
    laneCell o.ty (e.cell q o.ba (o.fn + v) i))))

/-- ACXW: outputs FN..FN+15 of the weave lanes spread exactly to the lanes of their regions; the accumulator written
holds nothing else (R223). -/
def execAcxw (o : ROp) (s : State) : Host.Outcome State Fault Refusal :=
  s.run (fun b => b.engine (.acxw o) 0 (fun b => b.modEng (fun e =>
    let keep := e.acc.filter (fun c => c.1 / 65536 % 4 != o.bd)
    slices.foldl (fun e1 q => (List.range 16).foldl (fun e2 k => lanes.foldl (fun e3 i =>
      e3.setCell q o.bd k i (e.cell q o.ba (o.fn + k) (i / 16))) e2) e1) { e with acc := keep })))

/-- The array that serves a quadrant (R169, R208). -/
def Block.arrayOf (b : Block) (q : Nat) : Nat := if b.fld ENG_ARRAY_A4_SERVES = q then 4 else q

/-- The order in which quadrants are summed: by number, and in three-array operation the shared array's two first, then
the others by array index (R180, R195). -/
def Block.sumOrder (b : Block) : List Nat :=
  let orphan := b.fld ENG_ARRAY_ORPHAN
  if orphan > 3 then [0, 1, 2, 3]
  else
    let others := [0, 1, 2, 3].filter (· != orphan)
    let byArray := (List.range 5).filterMap (fun a => others.find? (fun q => b.arrayOf q = a))
    match byArray with
    | host :: rest => [min host orphan, max host orphan] ++ rest
    | [] => [0, 1, 2, 3]

/-- The sum of a block over the quadrants in an order, each addition rounded (R180). -/
def laneReduce (e : Eng) (ty ba : Nat) (order : List Nat) (v i : Nat) : LRes :=
  match order with
  | [] => { bits := 0 }
  | q :: r => r.foldl (fun a p =>
      let z := laneAdd ty a.bits (e.value p ty ba v i)
      { z with inv := z.inv || a.inv, ovf := z.ovf || a.ovf }) { bits := e.value q ty ba v i }

/-- The reduction written to every slice; its flags reach every slice (R180, R218). -/
def Block.reduce (b : Block) (o : ROp) (order : List Nat) : Block :=
  let e := b.eng
  b.each slices (fun b q => b.vecN q o.ty o.bd (valuesOf o.ty) (laneReduce e o.ty o.ba order))

/-- REDX (R180). -/
def execRedx (o : ROp) (s : State) : Host.Outcome State Fault Refusal :=
  s.run (fun b => b.engine (.redx o) 0 (fun b => b.reduce o b.sumOrder))

/-- REDA: in the order in which the slices arrive; in three-array operation in REDX's order (R195, R225). -/
def execReda (o : ROp) (order : List Nat) (s : State) : Host.Outcome State Fault Refusal :=
  s.run (fun b => b.engine (.reda o order) 0 (fun b =>
    b.reduce o (if b.fld ENG_ARRAY_ORPHAN > 3 then order else b.sumOrder)))

end Sys2Proof.Machine
end

