-- ==== Sys2Proof/Machine/EngControl.lean ====
section
/-! DEFINITION. The engine's control instructions (Table 6-4): NOP, TWAIT, LOOP, the scalar instructions and WRFLG, and
the elementary output write. -/

namespace Sys2Proof.Machine

/-- NOP (R174). -/
def execNop (s : State) : Host.Outcome State Fault Refusal := s.run (fun b => b.engine .nop 0 id)

/-- S0..S7 as they stand when INIT issues its TWAIT (R173). -/
def Eng.saveScalars (e : Eng) : Eng :=
  { e with saved := slices.foldl (fun m q => (List.range 8).foldl (fun m i =>
      SMap.set (fun _ => 0) m (q * 16 + i) (e.scal.get (fun _ => 0) (q * 16 + i))) m) [] }

/-- The pipeline after the instructions issued so far, with the 2 cycles by which each corrected instruction word has delayed an
issue, and the words that delay one still to come (R170, R190). -/
def Eng.retraced (e : Eng) : Pipe × List Nat :=
  if e.fetched.isEmpty then (e.pipe, []) else Pipe.retrace { next := e.cycle0 } e.trail e.fetched

/-- The pipeline at TWAIT's issue. -/
def Eng.pipeAt (e : Eng) : Pipe :=
  let (p, left) := e.retraced
  if left.contains (pmWord e.pc) then p.stall 0 2 else p

/-- Errors met in the instruction words that the running program has fetched: a corrected one stalls the fetch for 2 cycles, and an
uncorrectable one aborts the tick at the fetch, after which none of its instructions issues (R170). -/
def Block.fetchErrors (b : Block) (fetch : List EccHit) : Block :=
  let ticking := b.eng.run = .tick
  let b := (b.eccRead 0 fetch).modEng (fun e => { e with
    fetched := e.fetched ++ (fetch.filter (fun h => !h.ue)).map (·.word), stalls := e.stalls + eccStall fetch })
  if ticking && fetch.any (·.ue) then b.modEng (fun e => { e with run := .none }) else b

/-- TWAIT: it issues when every earlier instruction has ended, and the program is complete (R186, R187). `fetch` are the
errors met in instruction words that no CYC has given. -/
def Block.twait (b : Block) (fetch : List EccHit) : Block :=
  if b.eng.run = .none then b
  else
    let ticking := b.eng.run = .tick
    let b := b.fetchErrors fetch
    if b.eng.run = .none then b
    else
      b.modEng (fun e =>
        let e := if ticking then e else e.saveScalars
        { e with run := .none, twaitAt := some e.pipeAt.waitCycle, trail := [], fetched := [] })

/-- TWAIT (R186). -/
def execTwait (fetch : List EccHit) (s : State) : Host.Outcome State Fault Refusal := s.run (fun b => b.twait fetch)

/-- LOOP: the next LEN instructions are executed CNT times (R185). -/
def execLoop (cnt len : Nat) (s : State) : Host.Outcome State Fault Refusal :=
  s.run (fun b => b.engine (.loop cnt len) 0 (fun b =>
    b.modEng (fun e => { e with loopTop := e.pc, loopEnd := e.pc + len - 1, loopLeft := cnt })))

/-- A scalar written in every slice. -/
def Block.setScalars (b : Block) (sd : Nat) (f : Nat → Nat) : Block := b.each slices (fun b q => b.setScalar q sd (f q))

/-- SMOV: the immediate, zero-extended (R173). -/
def execSmov (sd imm : Nat) (s : State) : Host.Outcome State Fault Refusal :=
  s.run (fun b => b.engine (.smov sd imm) 0 (fun b => b.setScalars sd (fun _ => imm)))

/-- SADD: the immediate, sign-extended from 22 bits, is added modulo 2^32 (R173). -/
def execSadd (sd imm : Nat) (s : State) : Host.Outcome State Fault Refusal :=
  s.run (fun b => b.engine (.sadd sd imm) 0 (fun b =>
    b.setScalars sd (fun q => unsigned 32 ((b.scalar q sd : Int) + signed 22 imm))))

/-- CYC: the cycles since the boundary at its issue, stalls included (R173). `fetch` are the errors met in the instruction words
fetched so far that no earlier CYC has given; after an uncorrectable one it does not issue (R170). -/
def execCyc (sd : Nat) (fetch : List EccHit) (s : State) : Host.Outcome State Fault Refusal :=
  s.run (fun b =>
    let b := if b.eng.run = .none || !(Instr.cyc sd fetch).wf then b else b.fetchErrors fetch
    b.engine (.cyc sd fetch) 0 (fun b => b.setScalars sd (fun _ => b.eng.retraced.1.next - 1)))

/-- TICK: half of TICKNO (R173). -/
def execTick (sd imm : Nat) (s : State) : Host.Outcome State Fault Refusal :=
  s.run (fun b => b.engine (.tick sd imm) 0 (fun b =>
    b.setScalars sd (fun _ => if imm = 0 then b.fld ENG_TICKNO_LO_VAL else b.fld ENG_TICKNO_HI_VAL)))

/-- AFLG: each slice's sticky flags, cleared after the read when IMM[0] is 1; ENG_ARITH stays (R217, R227). -/
def execAflg (sd imm : Nat) (s : State) : Host.Outcome State Fault Refusal :=
  s.run (fun b => b.engine (.aflg sd imm) 0 (fun b =>
    let b := b.setScalars sd (fun q => b.eng.flagsOf q)
    if imm = 1 then b.modEng (fun e => { e with inv := 0, ovf := 0 }) else b))

/-- WRFLG: event IMM[7:0] is raised at the commit of its tick (R188). -/
def execWrflg (imm : Nat) (s : State) : Host.Outcome State Fault Refusal :=
  s.run (fun b => b.engine (.wrflg imm) 0 (fun b => b.modEng (fun e => { e with events := e.events ++ [imm] })))

/-- The rows of BA that an output field takes (Table 6-9). -/
def fieldRows (f : Nat) : Nat := [1, 1, 4, 2, 1, 4, 1].getD f 0

/-- The place of a field's row for region `n` in the output buffer (R182). -/
def outKey (f r n : Nat) : Nat := (f * 4 + r) * 256 + n

/-- An output field written for every region from the rows of BA, read as I16 (R182). -/
def Eng.writeField (e : Eng) (f ba : Nat) : Eng :=
  let put (m : SMap Nat) (r n : Nat) : SMap Nat :=
    SMap.set (fun _ => 0) m (outKey f r n) (laneOf (e.row (n / 64) ba r) 18 (n % 64) % 65536)
  { e with
    outBuf := (List.range (fieldRows f)).foldl (fun m r => regions.foldl (fun m n => put m r n) m) e.outBuf
    wrote := if e.wrote.contains f then e.wrote else e.wrote ++ [f] }

/-- WROUT (R182). -/
def execWrout (o : ROp) (s : State) : Host.Outcome State Fault Refusal :=
  s.run (fun b => b.engine (.wrout o) 0 (fun b => b.modEng (fun e => e.writeField o.fn o.ba)))

/-- PRNG: draws 16 + 256 j + 64 q + i of the tick, row r from bits [16r + 15 : 16r] (R477). -/
def execPrng (o : ROp) (s : State) : Host.Outcome State Fault Refusal :=
  s.run (fun b => b.engine (.prng o) 0 (fun b =>
    let j := b.eng.prngJ
    let z (q i : Nat) : Nat := (prngDraw b.key b.tickno (16 + 256 * j + 64 * q + i)).toNat
    let b := b.each slices (fun b q => b.vecN q 2 o.bd 4 (fun r i => { bits := laneI16 (readI16 (z q i / 2 ^ (16 * r))) }))
    b.modEng (fun e => { e with prngJ := j + 1 })))

end Sys2Proof.Machine
end

