-- ==== Sys2Proof/Machine/EngVector.lean ====
section
/-! DEFINITION. The engine's elementwise, compare, select and lookup instructions (R177, R178, R219 to R221). -/

namespace Sys2Proof.Machine

/-- VADD (R219). -/
def execVadd (o : ROp) (s : State) : Host.Outcome State Fault Refusal :=
  s.run (fun b => b.engine (.vadd o) 0 (fun b => b.elementwise o.ty o.bd (fun e q v i =>
    laneAdd o.ty (e.value q o.ty o.ba v i) (e.value q o.ty o.bb v i))))

/-- VSUB (R219). -/
def execVsub (o : ROp) (s : State) : Host.Outcome State Fault Refusal :=
  s.run (fun b => b.engine (.vsub o) 0 (fun b => b.elementwise o.ty o.bd (fun e q v i =>
    laneSub o.ty (e.value q o.ty o.ba v i) (e.value q o.ty o.bb v i))))

/-- VMUL (R219). -/
def execVmul (o : ROp) (s : State) : Host.Outcome State Fault Refusal :=
  s.run (fun b => b.engine (.vmul o) 0 (fun b => b.elementwise o.ty o.bd (fun e q v i =>
    laneMul o.ty (e.value q o.ty o.ba v i) (e.value q o.ty o.bb v i))))

/-- VFMA (R219). -/
def execVfma (o : ROp) (s : State) : Host.Outcome State Fault Refusal :=
  s.run (fun b => b.engine (.vfma o) 0 (fun b => b.elementwise o.ty o.bd (fun e q v i =>
    laneFma o.ty (e.value q o.ty o.ba v i) (e.value q o.ty o.bb v i) (e.value q o.ty o.bd v i))))

/-- VCVT: rows as R221 pairs them. -/
def execVcvt (o : ROp) (s : State) : Host.Outcome State Fault Refusal :=
  s.run (fun b => b.engine (.vcvt o) 0 (fun b =>
    let src := o.fn % 8
    b.elementwise o.ty o.bd (fun e q v i =>
      if src = 1 && o.ty != 1 && v ≥ 2 then { bits := 0 } else laneCvt src o.ty (e.value q src o.ba v i))))

/-- VXW: each weave's lane spread to the lanes of its regions (Table 6-4). -/
def execVxw (o : ROp) (s : State) : Host.Outcome State Fault Refusal :=
  s.run (fun b => b.engine (.vxw o) 0 (fun b => b.elementwise o.ty o.bd (fun e q v i =>
    { bits := e.value q o.ty o.ba v (i / 16) })))

/-- One level of the pairwise tree (R225). -/
def sumPairs (ty : Nat) : List LRes → List LRes
  | x :: y :: r =>
    let z := laneAdd ty x.bits y.bits
    { z with inv := z.inv || x.inv || y.inv, ovf := z.ovf || x.ovf || y.ovf } :: sumPairs ty r
  | l => l

/-- The sum of 16 lanes in the four-level tree (R225). -/
def treeSum (ty : Nat) (ls : List Nat) : LRes :=
  (sumPairs ty (sumPairs ty (sumPairs ty (sumPairs ty (ls.map (fun v => { bits := v })))))).headD { bits := 0 }

/-- VSUML: lane 16g holds the sum of the group, the other lanes 0 (R225). -/
def execVsuml (o : ROp) (s : State) : Host.Outcome State Fault Refusal :=
  s.run (fun b => b.engine (.vsuml o) 0 (fun b => b.elementwise o.ty o.bd (fun e q v i =>
    if i % 16 = 0 then treeSum o.ty ((List.range 16).map (fun j => e.value q o.ty o.ba v (i + j))) else { bits := 0 })))

/-- VMIN (R220). -/
def execVmin (o : ROp) (s : State) : Host.Outcome State Fault Refusal :=
  s.run (fun b => b.engine (.vmin o) 0 (fun b => b.elementwise o.ty o.bd (fun e q v i =>
    lanePick true o.ty (e.value q o.ty o.ba v i) (e.value q o.ty o.bb v i))))

/-- VMAX (R220). -/
def execVmax (o : ROp) (s : State) : Host.Outcome State Fault Refusal :=
  s.run (fun b => b.engine (.vmax o) 0 (fun b => b.elementwise o.ty o.bd (fun e q v i =>
    lanePick false o.ty (e.value q o.ty o.ba v i) (e.value q o.ty o.bb v i))))

/-- VCLMP (R220). -/
def execVclmp (o : ROp) (s : State) : Host.Outcome State Fault Refusal :=
  s.run (fun b => b.engine (.vclmp o) 0 (fun b => b.elementwise o.ty o.bd (fun e q v i =>
    laneClamp o.ty (e.value q o.ty o.bd v i) (e.value q o.ty o.ba v i) (e.value q o.ty o.bb v i))))

/-- VMINI: the winner's value to BD and its selector to BB, elsewhere both unchanged; INV when either operand is NaN
(R218, R220). DESIGN CHOICE, log 13. -/
def execVmini (o : ROp) (s : State) : Host.Outcome State Fault Refusal :=
  s.run (fun b => b.engine (.vmini o) 0 (fun b =>
    let e := b.eng
    let d (q v i : Nat) := e.value q o.ty o.bd v i
    let x (q v i : Nat) := e.value q o.ty o.ba v i
    let b := b.elementwise o.ty o.bb (fun e q v i =>
      { bits := if laneWins o.ty (d q v i) (x q v i) then (laneExact o.ty o.fn 0).bits else e.value q o.ty o.bb v i })
    b.elementwise o.ty o.bd (fun _ q v i =>
      let nan := (readTy o.ty (d q v i)).isNone || (readTy o.ty (x q v i)).isNone
      let won := if o.bb = o.bd && Config.vminiIndexLast then laneExact o.ty o.fn 0 else lanePick true o.ty (x q v i) (x q v i)
      { bits := if laneWins o.ty (d q v i) (x q v i) then won.bits else d q v i
        inv := nan })))

/-- VCMP: 1.0 where the comparison holds, else 0; no flag (R218, R220). -/
def execVcmp (o : ROp) (s : State) : Host.Outcome State Fault Refusal :=
  s.run (fun b => b.engine (.vcmp o) 0 (fun b => b.elementwise o.ty o.bd (fun e q v i =>
    { bits := if laneCmp o.ty o.fn (e.value q o.ty o.ba v i) (e.value q o.ty o.bb v i) then oneTy o.ty else 0 })))

/-- VSEL: the rows of BA that FN selects, bit for bit (Table 6-4). -/
def execVsel (o : ROp) (s : State) : Host.Outcome State Fault Refusal :=
  s.run (fun b => b.engine (.vsel o) 0 (fun b => b.modEng (fun e =>
    slices.foldl (fun e q => (List.range 4).foldl (fun e r =>
      if o.fn / 2 ^ r % 2 = 1 then e.setRow q o.bd r (e.row q o.ba r) else e) e) e)))

/-- VSELL: the lanes of BA where BB is not zero, bit for bit (R220). So a NaN that it selects keeps its sign and fraction, which R213
says of no operation and R218 does not list: DESIGN CHOICE, log 78. -/
def execVsell (o : ROp) (s : State) : Host.Outcome State Fault Refusal :=
  s.run (fun b => b.engine (.vsell o) 0 (fun b => b.elementwise o.ty o.bd (fun e q v i =>
    { bits := if laneNonZero o.ty (e.value q o.ty o.bb v i) then e.value q o.ty o.ba v i
              else e.value q o.ty o.bd v i })))

/-- An index of TLOP: rounded to an integer, clamped above, and 0 for a negative value or a NaN (R177). -/
def tableIndex (ty v top : Nat) : Nat :=
  match readTy ty v with
  | none => 0
  | some x =>
    let n := roundInt x (scaleOf ty)
    if n < 0 then 0 else min n.toNat top

/-- TLOP: row 0 the minimum VCODE, row 1 the margin class, both I16; INV when an index is NaN (R177, R178, R218). -/
def execTlop (o : ROp) (ecc : List EccHit) (s : State) : Host.Outcome State Fault Refusal :=
  s.run (fun b => b.engine (.tlop o ecc) (eccStall ecc) (fun b =>
    let b := b.eccRead 3 ecc
    let e := b.eng
    let entry (q i : Nat) : Nat :=
      let f := tableIndex o.ty (e.value q o.ty o.ba 0 i) 63
      let band := tableIndex o.ty (e.value q o.ty o.ba 1 i) 7
      (e.word 3 (64 * (64 * q + i) + f)).toNat / 2 ^ (16 * band) % 65536
    b.each slices (fun b q => b.vecN q 2 o.bd 2 (fun r i =>
      { bits := laneI16 (if r = 0 then (800 + entry q i / 32 : Nat) else (entry q i % 32 : Nat))
        inv := (readTy o.ty (e.value q o.ty o.ba r i)).isNone }))))

/-- TLUF: slope × x + intercept of the segment of x, formed exactly and rounded once to TY (R177, R219). In every TY the table's slope
and intercept are read as C18, which the spec does not state: DESIGN CHOICE, log 78. -/
def laneFunc (e : Eng) (q ty t v : Nat) : LRes :=
  match readTy ty v with
  | none => laneNan ty
  | some x =>
    let s := scaleOf ty
    let seg := (clampI 0 31 ((2 * (x + 8 * 2 ^ s)) / 2 ^ s)).toNat
    let row := e.memRow 2 q (1804 + t)
    match fmtC18.read (laneOf row 18 (2 * seg)), fmtC18.read (laneOf row 18 (2 * seg + 1)) with
    | some a, some c => laneExact ty (a * x + c * 2 ^ s) (fmtC18.scale + s)
    | _, _ => laneNan ty

/-- TLUF (R177). -/
def execTluf (o : ROp) (ecc : List EccHit) (s : State) : Host.Outcome State Fault Refusal :=
  s.run (fun b => b.engine (.tluf o ecc) (eccStall ecc) (fun b =>
    let b := b.eccRead 2 ecc
    b.elementwise o.ty o.bd (fun e q v i => laneFunc e q o.ty (o.fn % 16) (e.value q o.ty o.ba v i))))

end Sys2Proof.Machine
end

