-- ==== Sys2Proof/Machine/Faults.lean ====
section
/-! DEFINITION. The collector's own commands: clears, the request of a block warm reset, its parity check, and class S
events by source (chapter 13). -/

namespace Sys2Proof.Machine

/-- A write of FLT_CLEAR: one instance, or every instance with INDEX 0x7FF (R387, R402). -/
def Block.fltClear (b : Block) (data : Word) : Block :=
  let src := Fld.get FLT_CLEAR_SRC data
  let index := Fld.get FLT_CLEAR_INDEX data
  if index = 0x7FF then b.clearSrc src else b.tryClear src index

/-- FLT_CLEAR (R387). -/
def execFltClear (t : Nat) (data : Word) (s : State) : Host.Outcome State Fault Refusal :=
  s.run (fun b => (b.at t).hostWrite FLT_CLEAR_SRC.base data Block.fltClear)

/-- BRESET: a block warm reset starts, or is logged and not started where R384, R399, R421 or R425 suppress it (R398, R403). -/
def execBreset (t : Nat) (data : Word) (s : State) : Host.Outcome State Fault Refusal :=
  s.run (fun b => (b.at t).hostWrite FLT_CTL_BRESET.base data (fun b d => if d.getLsbD 0 then b.breset else b))

/-- FLT_CFG[s] with some of its bits upset. -/
def Block.upset (b : Block) (u : BitUpset) : Block :=
  if u.source < 128 && u.bit < 32 then
    let a := FLT_CFG_PAR.base + 4 * u.source
    b.setReg a (b.reg a ^^^ (1#32 <<< u.bit))
  else b

/-- The parity bit of every FLT_CFG word matches (R382, R496). DEDUCED, log 53. -/
def Block.cfgParityOk (b : Block) : Bool :=
  (List.range 128).all (fun s => !parity (b.reg (FLT_CFG_PAR.base + 4 * s)))

/-- COLL_PARITY_CHECK: an SLO cycle passes, which the timers of the auxiliary converters count, and every FLT_CFG word is checked; a
mismatch is a class S event with a fixed chip-reset request (R356, R382, R514). DESIGN CHOICE, log 3. -/
def execCollParityCheck (t : Nat) (upsets : List BitUpset) (s : State) : Host.Outcome State Fault Refusal :=
  s.run (fun b =>
    let b := b.at t
    if !b.aonUp || !b.clkReady kSLO then b
    else
      let b := upsets.foldl Block.upset (({ b with slo := b.slo + 1 } : Block).each (List.range 16) Block.auxCycle)
      if b.cfgParityOk || b.pendingSrc srcCOLL_PARITY then b else b.classS srcCOLL_PARITY 0)

/-- CLASS_S_EVENT: the event of a source at the collector (R380, Table 13-2). DEDUCED, log 53. -/
def execClassSEvent (t src index : Nat) (s : State) : Host.Outcome State Fault Refusal :=
  s.run (fun b =>
    let b := b.at t
    if src = srcSLO_STOP then b.loseSource kSLO
    else if src = srcPH_ACTIVE_LOSS then b.loseSource b.activeLoop
    else if src = srcOV || src = srcSHORT then (if index < 256 then b.classS src index else b)
    else if src = srcCOLL_PARITY || src = srcHW_TRIP then b.classS src 0
    else b)

end Sys2Proof.Machine
end

