-- ==== Sys2Proof/Machine/Handshake.lean ====
section
/-! DEFINITION. The clock unit handshake and the test access port (chapter 2). -/

namespace Sys2Proof.Machine

/-- An F_TGL transition is captured with F_REQ and F_CUR; F_REQ above 0 is a wake event for the region, and a change of F_REQ
restarts a stopped engine clock (R20, R40, R138). F_CUR captured as 0 ends stage L3 of a descent while the engine runs
(Table 5-3, R18); otherwise the next commit ends it. -/
def Block.fTgl (b : Block) (n req cur : Nat) : Block :=
  let changed := req % 64 != b.fld REG_FIDX_REQ n
  let b := ((b.put REG_FIDX_REQ req n).put REG_FIDX_CUR cur n).noteLate n
  let b := if changed then b.restartEvent else b
  let b := if b.engineRunning && b.st n = sLeaving && (b.R n).descent = 3 && b.fld REG_FIDX_PERMIT n = 0 &&
      b.fld REG_FIDX_CUR n = 0 && !(b.R n).abandon then b.enterL4 n else b
  if req % 64 > 0 then b.wake n else b

/-- F_TGL_CAPTURE (R40). -/
def execFTglCapture (t n req cur : Nat) (s : State) : Host.Outcome State Fault Refusal :=
  s.run (fun b => if n < 256 then (b.at t).fTgl n req cur else b)

/-- FIDX_LATE_TIMEOUT: F_CUR above F_PERMIT for longer than 1 µs (R43). -/
def execFidxLateTimeout (t n : Nat) (s : State) : Host.Outcome State Fault Refusal :=
  s.run (fun b =>
    let b := b.at t
    match (b.R n).lateAt with
    | some a => if n < 256 && a + 1000 < b.now then b.report srcFIDX_LATE n else b
    | none => b)

/-- An instruction is loaded into the test access port, which holds BYPASS while TRST_N is low (R61). -/
def Block.loadTap (b : Block) (instr out : Nat) : Block := if b.trstLow then b else { b with tapInstr := instr, tapOut := out }

/-- TAP_EXTEST: every phase is held in SAFE and every HDR_EN low until a chip reset (R61). DEDUCED, log 54. -/
def execTapExtest (t : Nat) (s : State) : Host.Outcome State Fault Refusal :=
  s.run (fun b =>
    let b := b.at t
    if b.trstLow then b
    else
      let b := { b with extest := true, tapInstr := 2, tapOut := 0 }
      b.forceAll.each regions (fun b n => ((b.disarm n).dropClosings n).modR n (fun r => { r with hdrEn := 0 })))

/-- TAP_SAMPLE_PRELOAD: the port holds the instruction; the block goes on (R61). DEDUCED, log 54. -/
def execTapSamplePreload (s : State) : Host.Outcome State Fault Refusal :=
  s.run (fun b => b.loadTap 1 0)

/-- TAP_BYPASS (R61). DEDUCED, log 54. -/
def execTapBypass (s : State) : Host.Outcome State Fault Refusal :=
  s.run (fun b => b.loadTap 0 0)

/-- TAP_IDCODE: the port shifts out the identification code (R61). DEDUCED, log 54. -/
def execTapIdcode (s : State) : Host.Outcome State Fault Refusal :=
  s.run (fun b => b.loadTap 3 Config.idcode.toNat)

/-- TEST_LOGIC_RESET: TRST_N falls, and the port holds BYPASS while it is low; or it rises again (R61). DEDUCED, log 54. -/
def execTestLogicReset (low : Bool) (s : State) : Host.Outcome State Fault Refusal :=
  s.run (fun b => if low then { b with trstLow := true, tapInstr := 0, tapOut := 0 } else { b with trstLow := false })

end Sys2Proof.Machine
end

