-- ==== Sys2Proof/Machine/Hints.lean ====
section
/-! DEFINITION. The hint port: acceptance of each hint, the hint state of every group, and the wake events hints are
(R28 to R31, R137, R138, R142, R229 to R231). While the engine clock runs a hint's crossing is taken to complete at its
acceptance; while it stands, accepted hints wait in the queue of 64 (R28). DESIGN CHOICE, log 61. -/

namespace Sys2Proof.Machine

/-- A field of a hint word. -/
def hintField (h : BitVec 64) (hi lo : Nat) : Nat := h.toNat / 2 ^ lo % 2 ^ (hi + 1 - lo)

/-- The GROUP field of a hint (Table 2-4, R29). -/
def hintGroup (h : BitVec 64) : Nat := hintField h 59 55

/-- The record of group `g`. -/
def Block.H (b : Block) (g : Nat) : Hint := b.hint.get (fun _ => {}) g

/-- The block with the record of group `g` changed. -/
def Block.modH (b : Block) (g : Nat) (f : Hint → Hint) : Block :=
  { b with hint := b.hint.set (fun _ => {}) g (f (b.H g)) }

/-- HINT_READY is high while the service domain runs and the queue of 64 hints is not full (R28, R229, R337). -/
def Block.hintReady (b : Block) : Bool := b.serviceUp && b.hintQ.length < 64

/-- A hint state that no rule predicts (R391, Table 13-4). DESIGN CHOICE, log 7. -/
def freeHint (w : Word) (now : Nat) : Hint :=
  let v := w.toNat
  { level := v % 256, tag := v / 256 % 3, lead := v / 2048 % 65536 * 10
    fcAt := if v / 2 ^ 27 % 2 = 1 then some now else none
    leadAt := if v / 2 ^ 28 % 2 = 1 then some now else none
    exAt := if v / 2 ^ 29 % 2 = 1 then some now else none
    openBars := if v / 2 ^ 30 % 2 = 1 then [(v % 256, 0)] else []
    count := v / 2 ^ 31 }

/-- The hint state of a group becomes unpredictable. DESIGN CHOICE, log 7. -/
def Block.freeGroup (b : Block) (g : Nat) : Block :=
  let d := b.draw
  d.2.modH g (fun _ => freeHint d.1 b.now)

/-- A hint with a reserved bit set: the hint state, the wake events and the depth choice of every group are
unpredictable (Table 13-4). DESIGN CHOICE, log 7. -/
def Block.freeAllGroups (b : Block) : Block :=
  b.each groups (fun b g =>
    let b := b.freeGroup g
    let d := b.draw
    let b := d.2
    let b := if d.1.getLsbD 0 then b.each (b.groupRegions g) Block.wake else b
    b.each (b.groupRegions g) (fun b n => b.put REG_PSTATE_DEPTH ((d.1.toNat / 2) % 4) n))

/-- LEAD in ns. -/
def hintLead (h : BitVec 64) : Nat := hintField h 46 31 * 10

/-- A barrier opens in a group at an SLO count: a fifth one drops the oldest (R230). -/
def Block.openBarrier (b : Block) (g id slo : Nat) : Block :=
  let bars := (b.H g).openBars
  if bars.any (fun e => e.1 = id) then b
  else
    let b := if bars.length ≥ 4 then b.incr ENG_HINTSTAT_BAR_OVERFLOW else b
    b.modH g (fun x => { x with openBars := (if bars.length ≥ 4 then bars.drop 1 else bars) ++ [(id, slo)] })

/-- A barrier closes in a group at a time; an exit without an open barrier is counted (R230). -/
def Block.closeBarrier (b : Block) (g id t : Nat) : Block :=
  let b := if (b.H g).openBars.any (fun e => e.1 = id) then b else b.incr ENG_HINTSTAT_UNMATCHED
  b.modH g (fun x => { x with openBars := x.openBars.filter (fun e => e.1 != id), exAt := some t, exB := none })

/-- The crossing of a hint that was accepted at time `t`, SLO count `slo`, completes: the state of its group follows, with times
from the acceptance (R28, R137, R229, R230). -/
def Block.crossHint (b : Block) (t slo : Nat) (h : BitVec 64) : Block :=
  let g := hintGroup h
  let b := b.modH g (fun x => { x with count := x.count + 1 })
  let lead (b : Block) : Block := b.modH g (fun x => { x with lead := hintLead h, leadAt := some t, leadB := none })
  match hintField h 63 60 with
  | 1 => lead (b.modH g (fun x => { x with level := hintField h 54 47, fcAt := some t, fcB := none }))
  | 2 => b.openBarrier g (hintField h 54 47) slo
  | 3 => lead (b.closeBarrier g (hintField h 54 47) t)
  | 4 => b.modH g (fun x => { x with tag := hintField h 54 53 })
  | _ => b.modH g (fun x => { x with wake := some (hintField h 54 39) })

/-- The hint state with the hints that still wait for the engine clock (R257). -/
def Block.hintsTaken (b : Block) : Block := b.hintQ.foldl (fun b e => b.crossHint e.1 e.2.1 e.2.2) b

/-- The hints that waited for the engine clock cross, in order of acceptance, and are logged as they do (R28, R481). -/
def Block.drainHints (b : Block) : Block :=
  b.hintQ.foldl (fun b e => (b.note (.hint b.cycleNow e.2.2)).crossHint e.1 e.2.1 e.2.2) { b with hintQ := [] }

/-- A region names group `g`, in force or from the next boundary on (R29, R137). -/
def Block.hasRegions (b : Block) (g : Nat) : Bool :=
  regions.any (fun n => b.efld REG_GROUP_VALID n = 1 && b.efld REG_GROUP_GROUP n = g ||
    b.fld REG_GROUP_VALID n = 1 && b.fld REG_GROUP_GROUP n = g)

/-- A hint of a type is accepted: nothing unless HINT_READY is high and the word is of that type; unpredictable results
when a reserved bit is set or its group has no regions; otherwise its crossing, which waits while the engine clock stands,
and the wake events `wakes` of it at once. Any hint restarts a stopped engine clock (R20, R28 to R30, R138). In minimum safe
mode it is discarded (R419). DESIGN CHOICE, log 61. -/
def Block.acceptHint (b : Block) (ty : Nat) (h : BitVec 64) (reserved : Nat) (wakes : Block → Nat → Block) : Block :=
  if hintField h 63 60 != ty || !b.hintReady then b
  else
    let b := b.restartEvent
    let g := hintGroup h
    if b.bit IMG_STATUS_SAFE then b
    else if h.toNat % 2 ^ reserved != 0 then b.freeAllGroups
    else if !b.hasRegions g then b.freeGroup g
    else wakes (if b.eng.clockStopped then { b with hintQ := b.hintQ ++ [(b.now, b.slo, h)] }
                else (b.note (.hint b.cycleNow h)).crossHint b.now b.slo h) g

/-- A hint of a reserved TYPE or TAG is discarded (R30). -/
def Block.discardHint (b : Block) : Block := b.restartEvent.report srcHINT_BAD_TYPE 0

/-- The exit of R142 from DOZE, NAP, DARK or PRIMED: at acceptance plus LEAD − L − 530 ns, counted on SLO; the earlier of this start
and a pending one stands. In every other state the wake event acts at once: so R138 has it in LEAVING and DUSK, and in SOFTSTART,
WAKING and DAWN, for which R138 and R142 give no time, it is the model's choice (DESIGN CHOICE, log 78). DESIGN CHOICE, log 3. -/
def Block.forecastExit (b : Block) (n lead : Nat) : Block :=
  let st := b.st n
  if b.wakeIgnored n then b
  else if st = sDoze || st = sNap || st = sDark || st = sPrimed then
    let l := b.exitLatency n st b.clk.stoppedCol
    if lead ≤ l + 530 then b.wake n
    else
      let due := b.slo + (lead - l - 530) * 76 / 10000
      b.modR n (fun r => { r with exitAt := some (match r.exitAt with | some c => min c due | none => due) })
  else b.wake n

/-- FORECAST (R31, R142, R229). -/
def execForecast (t : Nat) (h : BitVec 64) (s : State) : Host.Outcome State Fault Refusal :=
  s.run (fun b => (b.at t).acceptHint 1 h 31 (fun b g => b.each (b.groupRegions g) (fun b n => b.forecastExit n (hintLead h))))

/-- BARRIER_ENTER (R230). -/
def execBarrierEnter (t : Nat) (h : BitVec 64) (s : State) : Host.Outcome State Fault Refusal :=
  s.run (fun b => (b.at t).acceptHint 2 h 47 (fun b _ => b))

/-- BARRIER_EXIT (R138, R142, R230). -/
def execBarrierExit (t : Nat) (h : BitVec 64) (s : State) : Host.Outcome State Fault Refusal :=
  s.run (fun b => (b.at t).acceptHint 3 h 31 (fun b g => b.each (b.groupRegions g) (fun b n => b.forecastExit n (hintLead h))))

/-- PHASE_TAG: the group's workload phase; Prefill and Decode wake its regions (R138, R229, R256). -/
def execPhaseTag (t : Nat) (h : BitVec 64) (s : State) : Host.Outcome State Fault Refusal :=
  s.run (fun b =>
    let b := b.at t
    let tag := hintField h 54 53
    if hintField h 63 60 = 4 && tag = 3 then (if b.hintReady then b.discardHint else b)
    else b.acceptHint 4 h 53 (fun b g => if tag = 1 || tag = 2 then b.each (b.groupRegions g) Block.wake else b))

/-- A limit below the exit latency of a region's state wakes it, as far as the deepest state that fits; an exit under way that is to
stop in a state which fits no longer goes on to the deepest that does (R138, R140). -/
def Block.limitWake (b : Block) (n wakeCode : Nat) : Block :=
  let st := b.st n
  if b.wakeIgnored n then b
  else if (b.R n).exitTo != 0 && st != sDoze && st != sNap then
    if b.depthLatency n (b.R n).exitTo b.clk.stoppedCol ≤ wakeCode * 100 then b
    else
      let d := b.deepest n wakeCode b.clk.stoppedCol
      b.modR n (fun r => { r with exitTo := d, exitAt := if d = 0 then none else r.exitAt })
  else if !([sDoze, sNap, sDark, sPrimed].contains st) then b
  else if b.exitLatency n st b.clk.stoppedCol ≤ wakeCode * 100 then b
  else
    let d := b.deepest n wakeCode b.clk.stoppedCol
    let pending := (b.R n).exitAt
    (b.startExit n).modR n (fun r => { r with exitTo := d, exitAt := if d = 0 then none else pending })

/-- LATENCY: the limit takes effect at the boundary whose snapshot holds it; a limit below the exit latency of a
region's state wakes the region (R137, R138). -/
def execLatency (t : Nat) (h : BitVec 64) (s : State) : Host.Outcome State Fault Refusal :=
  s.run (fun b => (b.at t).acceptHint 5 h 39 (fun b g => b.each (b.groupRegions g) (fun b n => b.limitWake n (hintField h 54 39))))

/-- HINT_RESERVED_TYPE (R30). -/
def execHintReservedType (t : Nat) (h : BitVec 64) (s : State) : Host.Outcome State Fault Refusal :=
  s.run (fun b =>
    let b := b.at t
    let ty := hintField h 63 60
    if b.hintReady && (ty = 0 || ty > 5 || ty = 4 && hintField h 54 53 = 3) then b.discardHint else b)

/-- BARRIER_STALE: open for 80,000 SLO cycles, the barrier is closed without an exit (R231). -/
def execBarrierStale (g id : Nat) (s : State) : Host.Outcome State Fault Refusal :=
  s.run (fun b =>
    if g < 32 && (b.H g).openBars.any (fun e => e.1 = id && decide (e.2 + 80000 ≤ b.slo)) then
      (b.modH g (fun x => { x with openBars := x.openBars.filter (fun e => e.1 != id) })).incr ENG_HINTSTAT_BAR_STALE
    else b)

end Sys2Proof.Machine
end

