-- ==== Sys2Proof/Machine/Hoop.lean ====
section
/-! DEFINITION. The ring member's events: received frames, returns and resends, lanes, allocation, pace and the bypass
(chapter 15). -/

namespace Sys2Proof.Machine

/-- Sixteen frames of a sender are remembered (R452). -/
def seenLimit : Nat := 16

/-- A member leaves the ring over a duplicated ID (R452). -/
def Block.duplicateId (b : Block) : Block := ((b.put HOOP_STATUS_DUP_ID 1).report srcHOOP_DOWN 0).bypassCheck

/-- An own frame returns: it leaves the buffer, and the member is up; a SEQ that is not in the buffer shows a duplicated
ID (R452, R453). -/
def Block.ownReturn (b : Block) (f : Frame) : Block :=
  if !b.hoop.bypOpen then b
  else if b.hoop.tx.any (fun x => x.started && x.frame.seq = f.seq) then
    (b.modHoop (fun h => { h with tx := h.tx.filter (fun x => !(x.started && x.frame.seq = f.seq)), backAt := some b.now })).startTxAll
  else b.duplicateId

/-- An intact frame is taken from the active lane: it ends that lane's run of bad frames, and the other's too where that has shown no bad
frame beside it (R449). -/
def Block.goodFrame (b : Block) : Block :=
  let a := b.fld HOOP_STATUS_ACT_LANE
  b.modHoop (fun h => { h with badRun0 := if a = 0 || !h.badNew then 0 else h.badRun0
                               badRun1 := if a = 1 || !h.badNew then 0 else h.badRun1, badNew := false })

/-- A frame of another member is received: forwarded whatever it is, and acted on, where it comes from a member, unless it repeats one
of the last 16 from its sender (R446, R451, R452). A frame with the member's own SRC is its own. DEDUCED, log 50. -/
def Block.receive (b : Block) (f : Frame) (act : Block → Block) : Block :=
  if !b.hoop.bypOpen then b
  else if f.src = b.me then b.goodFrame.ownReturn f
  else
    let b := b.goodFrame.modHoop (fun h => { h with fwd := some f, wire := slot f })
    if 64 ≤ f.src || (b.peer f.src).seen.contains f.seq then b
    else
      let b := b.modPeer f.src (fun p => { p with seen := (f.seq :: p.seen).take seenLimit })
      act (b.note (.ring (b.fld HOOP_STATUS_ACT_LANE) b.cycleNow f))

/-- HOOP_CAP: the sender's average, limit and capped state (R456). -/
def execHoopCap (t : Nat) (f : Frame) (s : State) : Host.Outcome State Fault Refusal :=
  s.run (fun b => if f.ty != mCap then b else (b.at t).receive f (fun b =>
    let avg := payload16 f 4
    let cap := (f.payload.getD 4 0).getLsbD 0
    let b := (b.put HOOP_MEMBER_AVG (min avg 4095) f.src).put HOOP_MEMBER_CAPPED (if cap then 1 else 0) f.src
    b.modPeer f.src (fun p => { p with capAt := some b.now, avg := avg, limit := payload16 f 6, capped := cap })))

/-- A share for member `i` is noted: the last one, and the shares of the last 13 turns (R458). DEDUCED, log 50. -/
def Block.noteShare (b : Block) (i share : Nat) : Block :=
  let b := b.put HOOP_MEMBER_SHARE (min share 4095) i
  b.modPeer i (fun p => { p with
    share := share
    shares := (b.now, share) :: p.shares.filter (fun e => b.now < e.1 + 13 * b.turn) })

/-- A share for the member itself: the one in force from now on, by R460. One that changes the share in force restarts a stopped
engine clock (R455). -/
def Block.takeShare (b : Block) (share : Nat) : Block :=
  let changed := b.shareRat != (share : Rat)
  let b := (b.modHoop (fun h => { h with budget := some (share, b.now) })).put HOOP_SHARE_LAST (min share 4095)
  if changed then b.restartEvent else b

/-- HOOP_BUDGET: the shares of the members it names; hearing it quiets an acting allocator (R459, R460). -/
def execHoopBudget (t : Nat) (f : Frame) (s : State) : Host.Outcome State Fault Refusal :=
  s.run (fun b => if f.ty != mBudget then b else (b.at t).receive f (fun b =>
    let b := b.modHoop (fun h => { h with budHeard := some b.now, acting := false })
    let b := if b.mayAllocate then b.put HOOP_STATUS_ROLE 2 else b
    b.each (List.range 6) (fun b j =>
      let i := f.arg + j
      if i < b.fld HOOP_CFG_N then
        let share := payload16 f (4 + 2 * j)
        let b := b.noteShare i share
        if i = b.me then b.takeShare share else b
      else b)))

/-- HOOP_PACE: a notice of the member's own pace group (R462). -/
def execHoopPace (t : Nat) (f : Frame) (s : State) : Host.Outcome State Fault Refusal :=
  s.run (fun b => if f.ty != mPace then b else (b.at t).receive f (fun b =>
    if f.arg = b.fld HOOP_PACE_PGROUP then
      let b := b.modPeer f.src (fun p => { p with rate := payload16 f 4, rateAt := some b.now })
      if b.bit HOOP_PACE_FOLLOW then b.restartEvent else b
    else b))

/-- HOOP_TICK_SYNC: own TICKNO and cycle at reception less the values carried (R463). -/
def execHoopTickSync (t : Nat) (f : Frame) (s : State) : Host.Outcome State Fault Refusal :=
  s.run (fun b => if f.ty != mTickSync then b else (b.at t).receive f (fun b =>
    (b.put HOOP_SYNC_TICK_OFS (unsigned 16 ((b.tickno : Int) - payload16 f 4))).put HOOP_SYNC_CYC_OFS
      (unsigned 10 ((b.cycleNow : Int) - payload16 f 12))))

/-- HOOP_FAULT: recorded, and HOOP_NOTICE raised (R464). -/
def execHoopFault (t : Nat) (f : Frame) (s : State) : Host.Outcome State Fault Refusal :=
  s.run (fun b => if f.ty != mFault then b else (b.at t).receive f (fun b =>
    let b := (b.put HOOP_NOTICE_MEMBER f.src).put HOOP_NOTICE_SRC (f.payload.getD 0 0).toNat
    let b := (b.put HOOP_NOTICE_CLASS (f.payload.getD 1 0).toNat).put HOOP_NOTICE_INSTANCE (payload16 f 6)
    b.restartEvent.report srcHOOP_NOTICE 0))

/-- HOOP_PROG: the two words of the sender's rows (R466). -/
def execHoopProg (t : Nat) (f : Frame) (s : State) : Host.Outcome State Fault Refusal :=
  s.run (fun b => if f.ty != mProg then b else (b.at t).receive f (fun b =>
    (b.modPeer f.src (fun p => { p with word0 := payload16 f 4, word1 := payload16 f 6 })).restartEvent))

/-- HOOP_RESERVED_TYPE: forwarded and otherwise discarded (R455). -/
def execHoopReservedType (t : Nat) (f : Frame) (s : State) : Host.Outcome State Fault Refusal :=
  s.run (fun b => if 1 ≤ f.ty && f.ty ≤ 6 then b else (b.at t).receive f id)

/-- HOOP_OWN_FRAME_RETURN (R452). -/
def execHoopOwnFrameReturn (t : Nat) (f : Frame) (s : State) : Host.Outcome State Fault Refusal :=
  s.run (fun b => let b := b.at t; if f.src = b.me then b.goodFrame.ownReturn f else b)

/-- HOOP_RESEND: a frame not returned within 2 turns is sent again, up to three times, then dropped; TICK_SYNC is never
resent (R452). DEDUCED, log 50. -/
def Block.resend (b : Block) (seq : Nat) : Block :=
  match b.hoop.tx.find? (fun x => x.started && x.frame.seq = seq) with
  | none => b
  | some x =>
    if b.now < x.sentAt + 2 * b.turn then b
    else
      let drop (b : Block) := (b.modHoop (fun h => { h with tx := h.tx.filter (fun y => y != x) })).startTxAll
      if x.frame.ty = mTickSync then drop b
      else if x.resends < 3 then
        (b.incr HOOP_STAT_RETRY).modHoop (fun h => { h with
          wire := slot x.frame
          tx := h.tx.map (fun y => if y = x then { y with resends := y.resends + 1, sentAt := b.now } else y) })
      else drop (b.incr HOOP_STAT_DROP)

/-- HOOP_RESEND (R452). -/
def execHoopResend (t seq : Nat) (s : State) : Host.Outcome State Fault Refusal :=
  s.run (fun b => (b.at t).resend seq)

/-- The OK bit of a lane. -/
def laneOk (lane : Nat) : Fld := if lane = 0 then HOOP_STATUS_LANE0_OK else HOOP_STATUS_LANE1_OK

/-- The receiver moves off an active lane that is not OK when the other is (R449). -/
def Block.laneMove (b : Block) : Block :=
  let a := b.fld HOOP_STATUS_ACT_LANE
  if !b.bit (laneOk a) && b.bit (laneOk (1 - a)) then (b.put HOOP_STATUS_ACT_LANE (1 - a)).incr HOOP_STAT_LANE_SW else b

/-- A lane shows an error, from which its 1 ms without one is counted anew (R449). -/
def Block.laneError (b : Block) (lane : Nat) : Block :=
  b.modHoop (fun h => { h with errAt0 := if lane = 0 then b.now else h.errAt0, errAt1 := if lane = 0 then h.errAt1 else b.now })

/-- When a lane last showed an error. -/
def Block.errAt (b : Block) (lane : Nat) : Nat := if lane = 0 then b.hoop.errAt0 else b.hoop.errAt1

/-- A lane has failed (R449). DEDUCED, log 50. -/
def Block.laneFail (b : Block) (lane : Nat) : Block := (((b.laneError lane).put (laneOk lane) 0).report srcHOOP_LANE 0).laneMove

/-- HOOP_LANE_FAIL (R449). -/
def execHoopLaneFail (t lane : Nat) (s : State) : Host.Outcome State Fault Refusal :=
  s.run (fun b => if lane < 2 then (b.at t).laneFail lane else b)

/-- The run of bad frames of a lane. -/
def Block.badRun (b : Block) (lane : Nat) : Nat := if lane = 0 then b.hoop.badRun0 else b.hoop.badRun1

/-- A frame of a lane fails its CRC; the fourth in a row fails the lane (R449). -/
def Block.badFrame (b : Block) (lane : Nat) : Block :=
  let other := lane != b.fld HOOP_STATUS_ACT_LANE
  let b := b.modHoop (fun h => { h with
    badRun0 := if lane = 0 then h.badRun0 + 1 else h.badRun0
    badRun1 := if lane = 0 then h.badRun1 else h.badRun1 + 1
    badNew := h.badNew || other })
  if 4 ≤ b.badRun lane && b.bit (laneOk lane) then b.laneFail lane else b

/-- HOOP_BAD_FRAME: the symbols of a frame with a bad CRC, a code error or a misplaced control symbol are discarded and not
forwarded; each is an error of its lane, and a bad CRC counts on it (R449, R450). Symbols that spell an intact frame are none. -/
def execHoopBadFrame (t lane : Nat) (syms : List Symbol) (s : State) : Host.Outcome State Fault Refusal :=
  s.run (fun b =>
    let b := b.at t
    if 2 ≤ lane then b
    else match frameBody syms with
      | none => b.laneError lane
      | some body => if crcOk body then b else (b.laneError lane).badFrame lane)

/-- HOOP_LANE_OK: 1 ms in alignment without error (R449). DEDUCED, log 50. -/
def execHoopLaneOk (t lane : Nat) (s : State) : Host.Outcome State Fault Refusal :=
  s.run (fun b =>
    let b := b.at t
    if lane < 2 && decide (b.errAt lane + 1000000 ≤ b.now) then (b.put (laneOk lane) 1).laneMove else b)

/-! Allocation (R457, R458). -/

/-- FLOOR and MAX of a member. -/
def Block.ringFloor (b : Block) (i : Nat) : Nat := b.hoop.floors.get (fun _ => 0) i
def Block.ringMax (b : Block) (i : Nat) : Nat := b.hoop.maxes.get (fun _ => 0) i

/-- A member is heard: a CAP from it within the last 13 turns. The allocator hears itself. -/
def Block.heard (b : Block) (i : Nat) : Bool :=
  i = b.me || (match (b.peer i).capAt with
    | some t => decide (b.now ≤ t + 13 * b.turn)
    | none => false)

/-- AVG, LIMIT and CAPPED of a member; the allocator's own as its CAP frames carry them (R456). -/
def Block.capOf (b : Block) (i : Nat) : Nat × Nat × Bool :=
  if i = b.me then ((roundDiv (b.fld PWR_CHIP_AVG_FAST) 16).toNat, b.fld PWR_CAP_SLOW_LIMIT, b.capped)
  else ((b.peer i).avg, (b.peer i).limit, (b.peer i).capped)

/-- ENT in force: at least the sum of the floors (R457). -/
def Block.entitlement (b : Block) (ids : List Nat) : Nat := max (b.fld HOOP_ALLOC_ENT) ((ids.map b.ringFloor).sum)

/-- want[i] of R457. -/
def Block.want (b : Block) (i : Nat) : Nat :=
  let fl := b.ringFloor i
  let mx := b.ringMax i
  if b.heard i then
    let p := b.capOf i
    let base := if p.2.2 then (b.peer i).share else p.1
    let w := min mx (max fl (base * 17 / 16))
    if p.2.1 != 0 then max fl (min w p.2.1) else w
  else fl

/-- t[i] of R457. -/
def Block.target (b : Block) (ids : List Nat) (i : Nat) : Nat :=
  let ent := b.entitlement ids
  let sumW := (ids.map b.want).sum
  if sumW ≤ ent then
    let room := (ids.map (fun j => b.ringMax j - b.want j)).sum
    b.want i + (if room > 0 then (ent - sumW) * (b.ringMax i - b.want i) / room else 0)
  else
    let sumF := (ids.map b.ringFloor).sum
    b.ringFloor i + (ent - sumF) * (b.want i - b.ringFloor i) / ((ids.map (fun j => b.want j - b.ringFloor j)).sum)

/-- COUNTED[i] of R458. -/
def Block.counted (b : Block) (i : Nat) : Nat :=
  ((b.peer i).shares.filter (fun e => b.now < e.1 + 13 * b.turn)).foldl (fun m e => max m e.2) (b.ringFloor i)

/-- The shares of a turn: decreases at once, raises from the headroom in ascending ID order (R458). DEDUCED, log 50. -/
def Block.allocate (b : Block) : Block :=
  let ids := List.range (b.fld HOOP_CFG_N)
  let ts := ids.map (fun i => (i, b.target ids i))
  let b := ts.foldl (fun b e => if e.2 ≤ (b.peer e.1).share then b.noteShare e.1 e.2 else b) b
  let h0 : Int := (b.entitlement ids : Int) - ((ids.map b.counted).sum : Nat)
  let r := ts.foldl (fun (a : Block × Int) e =>
    let s := (a.1.peer e.1).share
    if e.2 ≤ s then a
    else
      let d := clampI 0 a.2 ((e.2 : Int) - s)
      (a.1.noteShare e.1 (s + d.toNat), a.2 - d)) (b, max 0 h0)
  let b := r.1
  let b := b.modHoop (fun h => { h with allocAt := some b.now })
  let b := b.each (List.range ((b.fld HOOP_CFG_N + 5) / 6)) (fun b j =>
    b.sendFrame mBudget (6 * j) ((List.range 6).flatMap (fun k =>
      bytes16 (if 6 * j + k < b.fld HOOP_CFG_N then (b.peer (6 * j + k)).share else 0))))
  b.takeShare (b.peer b.me).share

/-- HOOP_ALLOCATION: once per turn while acting (R457). -/
def execHoopAllocation (t : Nat) (s : State) : Host.Outcome State Fault Refusal :=
  s.run (fun b =>
    let b := b.at t
    let due := match b.hoop.allocAt with
      | some a => decide (a + b.turn ≤ b.now)
      | none => true
    if b.hoop.acting && b.hoop.bypOpen && due then b.allocate else b)

/-- HOOP_ALLOCATOR_TAKEOVER: the allocator after 16 turns, the backup after 32, without a BUDGET of another member; it
starts from the floors (R459). -/
def execHoopAllocatorTakeover (t : Nat) (s : State) : Host.Outcome State Fault Refusal :=
  s.run (fun b =>
    let b := b.at t
    let since := match b.hoop.budHeard with
      | some a => max a b.hoop.openAt
      | none => b.hoop.openAt
    let turns := if b.me = b.fld HOOP_CFG_ALLOC_ID then 16 else 32
    if b.mayAllocate && b.hoop.cfgOk && b.hoop.bypOpen && !b.hoop.acting && decide (since + turns * b.turn ≤ b.now) then
      let b := (b.modHoop (fun h => { h with acting := true, allocAt := none })).put HOOP_STATUS_ROLE 1
      b.each (List.range (b.fld HOOP_CFG_N)) (fun b i => b.modPeer i (fun p => { p with share := b.ringFloor i }))
    else b)

/-- HOOP_BUDGET_MISSING: t first exceeds 1 turn (R460). -/
def execHoopBudgetMissing (t : Nat) (s : State) : Host.Outcome State Fault Refusal :=
  s.run (fun b =>
    let b := b.at t
    match b.hoop.budget with
    | some (_, a) => if decide (a + b.turn < b.now) then b.report srcHOOP_HOLD 0 else b
    | none => b)

/-- HOOP_STATUS.STATE (R453). -/
def Block.hoopState (b : Block) : Nat :=
  if !b.hoop.bypOpen then 0
  else match b.hoop.backAt with
    | some a => if b.now ≤ a + 3 * b.turn && b.hoop.openAt ≤ a then 2 else 1
    | none => 1

/-- HOOP_DOWN_TIMEOUT: other than UP for 3 turns with the bypass open (R453). -/
def execHoopDownTimeout (t : Nat) (s : State) : Host.Outcome State Fault Refusal :=
  s.run (fun b =>
    let b := b.at t
    let since := match b.hoop.backAt with
      | some a => if b.hoop.openAt ≤ a then a + 3 * b.turn else b.hoop.openAt
      | none => b.hoop.openAt
    if b.hoop.bypOpen && decide (since + 3 * b.turn ≤ b.now) then b.report srcHOOP_DOWN 0 else b)

/-- HOOP_CAP_SEND (R456). -/
def execHoopCapSend (t : Nat) (s : State) : Host.Outcome State Fault Refusal :=
  s.run (fun b => (b.at t).sendCap false)

/-- HOOP_TICK_SYNC_SEND: its payload is that of its start (R455, R463). -/
def execHoopTickSyncSend (t : Nat) (s : State) : Host.Outcome State Fault Refusal :=
  s.run (fun b =>
    let b := b.at t
    if b.hoop.acting then b.sendFrame mTickSync 0 [] else b)

/-- HOOP_BYPASS_OPEN: once every condition holds and 10 ms have passed since the pin last fell, idles go out on both lanes; after
100 µs of them the pin rises (R454). DEDUCED, log 50. -/
def execHoopBypassOpen (t : Nat) (s : State) : Host.Outcome State Fault Refusal :=
  s.run (fun b =>
    let b := b.at t
    let waited := match b.hoop.fellAt with
      | some a => decide (a + 10000000 ≤ b.now)
      | none => true
    if b.mayJoin && waited && !b.hoop.bypOpen then
      match b.hoop.idleAt with
      | none => b.modHoop (fun h => { h with idleAt := some b.now, wire := symIdle })
      | some a =>
        if a + 100000 ≤ b.now then b.modHoop (fun h => { h with bypOpen := true, openAt := b.now, idleAt := none }) else b
    else b)

/-- During a block warm reset a capped member repeats its last PACE after 16 turns without one (R461, R467). DEDUCED, log 50. -/
def Block.paceRepeats (b : Block) : Bool :=
  b.restarting && b.hoop.wasCapped && b.fld HOOP_RATE_SENT != 0xFFFF && !b.hoop.tx.any (fun x => x.frame.ty = mPace && !x.started) &&
  (match b.hoop.paceAt with
   | some a => decide (a + 16 * b.turn ≤ b.now)
   | none => false)

/-- HOOP_RATE_LIMIT_EXPIRY (R455). -/
def execHoopRateLimitExpiry (t : Nat) (s : State) : Host.Outcome State Fault Refusal :=
  s.run (fun b =>
    let b := b.at t
    (if b.paceRepeats then b.sendFrame mPace (b.fld HOOP_PACE_PGROUP) (bytes16 (b.fld HOOP_RATE_SENT)) else b).startTxAll)

/-- A write of HOOP_CTL: LEAVE of 1 sends the leaving notice and then drives the pin low (R454, R464). -/
def Block.leaveWrite (b : Block) (data : Word) : Block :=
  let b := b.put HOOP_CTL_LEAVE (Fld.get HOOP_CTL_LEAVE data)
  if data.getLsbD 0 then (b.sendFaultFrame 0 0x7F 0).bypassCheck else b

/-- HOOP_LEAVE (R454). -/
def execHoopLeave (t : Nat) (data : Word) (s : State) : Host.Outcome State Fault Refusal :=
  s.run (fun b => (b.at t).hostWrite HOOP_CTL_LEAVE.base data Block.leaveWrite)

/-- HOOP_ENT_WRITE: used by the acting allocator from the next turn (R457, R469). -/
def execHoopEntWrite (data : Word) (s : State) : Host.Outcome State Fault Refusal :=
  s.run (fun b => b.hostWrite HOOP_ALLOC_ENT.base data (fun b d => b.put HOOP_ALLOC_ENT (Fld.get HOOP_ALLOC_ENT d)))

/-- A write of PWR_CAP_SLOW: LIMIT and WIN; a write of LIMIT sends a CAP as soon as the rate limit allows (R286,
R456). DEDUCED, log 43. -/
def Block.slowCapWrite (b : Block) (data : Word) : Block :=
  let b := (b.put PWR_CAP_SLOW_LIMIT (Fld.get PWR_CAP_SLOW_LIMIT data)).put PWR_CAP_SLOW_WIN
    (Fld.get PWR_CAP_SLOW_WIN data)
  b.sendCap true

/-- SLOW_CAP_LIMIT_WRITE (R456). -/
def execSlowCapLimitWrite (t : Nat) (data : Word) (s : State) : Host.Outcome State Fault Refusal :=
  s.run (fun b => (b.at t).hostWrite PWR_CAP_SLOW_LIMIT.base data Block.slowCapWrite)

/-! Pace (R461, R462). -/

/-- The regions in RUN. -/
def Block.runRegions (b : Block) : List Nat := regions.filter (fun n => b.st n = sRun)

/-- The member's rate in MHz over its regions in RUN; none while no region is (R461). -/
def Block.ownRate (b : Block) : Option Nat :=
  let rs := b.runRegions
  if rs.isEmpty then none
  else some ((rs.map (fun n => b.hoop.freqs.get (fun _ => 0) (b.fld REG_FIDX_CUR n) * (b.R n).issue)).sum / (255 * rs.length))

/-- The pace notices of a commit (R461). DEDUCED, log 50. -/
def Block.paceCommit (b : Block) : Block :=
  let capped := b.capped
  let fell := b.hoop.wasCapped && !capped
  let rose := !b.hoop.wasCapped && capped
  let b := b.modHoop (fun h => { h with wasCapped := capped, paced := if rose then false else h.paced })
  let pace (b : Block) (r : Nat) (p : Bool) :=
    (b.sendFrame mPace (b.fld HOOP_PACE_PGROUP) (bytes16 r)).modHoop (fun h => { h with paced := p })
  let waiting := b.hoop.tx.any (fun x => x.frame.ty = mPace && !x.started)
  if fell then pace b 0xFFFF false
  else if !capped || waiting then b
  else match b.ownRate with
    | none => if b.hoop.paced then pace b 0xFFFF false else b
    | some r =>
      let sent := b.fld HOOP_RATE_SENT
      let moved := decide (((r : Int) - sent).natAbs * 64 > sent)
      let old := match b.hoop.paceAt with
        | some a => decide (a + 16 * b.turn ≤ b.now)
        | none => true
      if moved || old || !b.hoop.paced then pace b r true else b

/-- The notices in force: member and RATE (R462). -/
def Block.notices (b : Block) : List (Nat × Nat) :=
  (List.range 64).filterMap (fun i =>
    let p := b.peer i
    match p.rateAt with
    | some a => if i != b.me && p.rate != 0xFFFF && decide (b.now ≤ a + 32 * b.turn) then some (i, p.rate) else none
    | none => none)

/-- PACE_IDX at a boundary, with R_min and its member (R462). DEDUCED, log 50. -/
def Block.paceIndex (b : Block) : Block :=
  let ns := b.notices
  let least := ns.foldl (fun m e => match m with
    | some x => if e.2 < x.2 then some e else some x
    | none => some e) (none : Option (Nat × Nat))
  let rs := b.runRegions
  let issue := (rs.map (fun n => (b.R n).issue)).sum
  match least with
  | none => ((b.put HOOP_PACE_VALID 0).put HOOP_RATE_MIN 0xFFFF).put HOOP_PACE_PACE_IDX 63
  | some (i, r) =>
    let b := ((b.put HOOP_PACE_VALID 1).put HOOP_RATE_MIN r).put HOOP_PACE_SLOWEST i
    let ok (f : Nat) : Bool :=
      b.hoop.freqs.get (fun _ => 0) f * issue * 256 ≥ r * (256 + b.efld HOOP_PACE_PACE_M) * 255 * rs.length
    let idx := if b.efld HOOP_PACE_FOLLOW = 0 || issue = 0 then 63 else ((List.range 64).find? ok).getD 63
    b.put HOOP_PACE_PACE_IDX idx

end Sys2Proof.Machine
end

