-- ==== Sys2Proof/Machine/Reducer.lean ====
section
/-! DEFINITION. The activity reducer: power estimates, caps, energy accounts (chapter 9), and the activity counter input
(R32 to R34). Powers are exact rationals in W, energies in W·ns. -/

namespace Sys2Proof.Machine

/-- The block with its reducer changed. -/
def Block.modRed (b : Block) (f : Red → Red) : Block := { b with red := f b.red }

/-- The registers whose writes act at the next frame completion: PWR_CAP_FAST, PWR_CAP_SLOW, PWR_CAP_CFG, PWR_CORR, PWR_FEAT,
PWR_PMAP, PWR_QMAP, PWR_LKG and PWR_EWT (R264, R284). -/
def frameDelayed (a : Nat) : Bool :=
  [(0x20004, 0x2000C), (0x20014, 0x20014), (0x20040, 0x2005C), (0x20100, 0x202FC), (0x20C00, 0x21FFC)].any (fun r => r.1 ≤ a && a ≤ r.2)

/-- A field of those registers as in force since the last frame completion. -/
def Block.pfld (b : Block) (f : Fld) (i : Nat := 0) : Nat := Fld.get f (b.red.cfg.get resetWord (f.base + 4 * i))

/-- A power of a table; 0 where none is listed. -/
def pw (m : SMap Rat) (k : Nat) : Rat := m.get (fun _ => 0) k

/-- A table of powers over some indices. -/
def pwTab (ks : List Nat) (f : Nat → Rat) : SMap Rat := SMap.tab (fun _ => 0) f ks

/-- The sum of a list of powers. -/
def ratSum (l : List Rat) : Rat := l.foldl (· + ·) 0

/-- A counter of the frame in use. -/
def Red.counter (r : Red) (p c : Nat) : Nat := r.counters.get (fun _ => 0) (16 * p + c)

/-- The partitions, and those mapped (R264). -/
def partitions : List Nat := List.range 64
def Block.isMapped (b : Block) (p : Nat) : Bool :=
  b.pfld PWR_PMAP_FULL p != 0 && b.pfld PWR_PMAP_FIRST p ≤ b.pfld PWR_PMAP_LAST p

/-- The partition covers a region (R264). -/
def Block.covers (b : Block) (p n : Nat) : Bool :=
  b.isMapped p && b.pfld PWR_PMAP_FIRST p ≤ n && n ≤ b.pfld PWR_PMAP_LAST p

/-- N(π) (R267). -/
def Block.coverCount (b : Block) (p : Nat) : Nat := b.pfld PWR_PMAP_LAST p - b.pfld PWR_PMAP_FIRST p + 1

/-- The dynamic power that counter `c` of a partition shows over the 2 µs window (R267). -/
def Block.counterPower (b : Block) (p c : Nat) : Rat :=
  ((b.pfld PWR_EWT_EWT (16 * p + c) * b.red.counter p c : Nat) : Rat) / 32000000

/-- P_d(π) (R267). -/
def Block.partPower (b : Block) (p : Nat) : Rat := ratSum ((List.range 16).map (b.counterPower p))

/-- L(π): round(256 × count0 / FULL), at most 255 (R265); the tie of the rounding is not stated. -/
def Block.partLevel (b : Block) (p : Nat) : Nat :=
  min 255 (nearest 30 (256 * b.red.counter p 0 : Nat) (b.pfld PWR_PMAP_FULL p)).toNat

/-- A field that acts as 1 when written 0. -/
def atLeast1 (v : Nat) : Nat := if v = 0 then 1 else v

/-- The greatest 64-bit fraction x with (x / 2^64)^den at most 2^r, from its `k` lowest bits on (R267). -/
def rootBits (r den : Nat) : Nat → Nat → Nat
  | 0, x => x
  | k + 1, x => rootBits r den k (if (x + 2 ^ k) ^ den ≤ 2 ^ (r + 64 * den) then x + 2 ^ k else x)

/-- 2 raised to r / den, below 1: the 64-bit root, and what it cuts off (R267). DESIGN CHOICE, log 10. -/
def pow2frac (r den : Nat) : Rat :=
  ((rootBits r den 66 0 : Nat) + max 0 (min 1 (Config.pow2rest r den))) / ((2 ^ 64 : Nat) : Rat)

/-- 2 raised to num / den, exact where the exponent is an integer (R267). -/
def pow2rat (num : Int) (den : Nat) : Rat :=
  let q := num / (den : Int)
  let r := (num % (den : Int)).toNat
  let int : Rat := if q ≥ 0 then ((2 ^ q.toNat : Nat) : Rat) else 1 / ((2 ^ (-q).toNat : Nat) : Rat)
  if r = 0 then int else int * pow2frac r den

/-- P_leak(n) (R267), the reading in 0.25 °C: 0 while every header segment is open. DEDUCED, log 42. -/
def Block.leakPower (b : Block) (n : Nat) : Rat :=
  if (b.R n).hdrEn = 0 then 0
  else
    let v : Rat := b.fld REG_VSET_APPLIED n
    let t := signed 12 (b.fld THM_TEMP_TEMP n)
    let t2 := atLeast1 (b.pfld PWR_CORR_T2)
    ((b.pfld PWR_LKG_LEAK n : Nat) : Rat) / 1000 * (v / 1500) * (v / 1500) * pow2rat (t - 340) (4 * t2)

/-- Pm(n): the mean over the interval since the last frame completion (R268). -/
def Block.measured (b : Block) (n : Nat) : Rat :=
  let r := b.R n
  if r.pmN = 0 then 0 else (r.pmSum : Rat) / (67108864000 * r.pmN)

/-- The weave sums of R269. -/
def weaveSum (m : SMap Rat) (w : Nat) : Rat := ratSum ((regionsOf w).map (pw m))

/-- A run of the reducer over `tau` ns: estimates, residual, corrected powers, levels and features (R265 to R269).
DEDUCED, log 42. -/
def Block.estimate (b : Block) (tau : Rat) : Block :=
  let parts := partitions.filter b.isMapped
  let pds := parts.map (fun p => (p, b.partPower p))
  let leak := pwTab regions b.leakPower
  let est := pwTab regions (fun n =>
    ratSum ((pds.filter (fun e => b.covers e.1 n)).map (fun e => e.2 / (b.coverCount e.1 : Nat))) + pw leak n)
  let meas := pwTab regions b.measured
  let dt : Rat := ((b.now - b.red.updAt : Nat) : Rat)
  let resid := pwTab weaves (fun w =>
    let r := pw b.red.resid w
    r + dt / tau * (weaveSum meas w - weaveSum est w - r))
  let cor := pwTab regions (fun n =>
    let w := weaveOf n
    let total := weaveSum meas w
    let share := if total ≤ 0 then pw resid w / 16 else pw resid w * pw meas n / total
    max 0 (pw est n + share))
  let lvls := parts.map (fun p => (p, b.partLevel p))
  let level : SMap Nat := SMap.tab (fun _ => 0)
    (fun n => (lvls.filter (fun e => b.covers e.1 n)).foldl (fun m e => max m e.2) 0) regions
  let feat := pwTab (List.range 128) (fun k =>
    let w := k / 8
    let c := b.pfld PWR_FEAT_FSEL (k % 8)
    ratSum ((parts.filter (fun p => (regionsOf w).any (b.covers p))).map (fun p => b.counterPower p c))
      / (atLeast1 (b.pfld PWR_FEAT_FNORM (k % 8)) : Nat))
  let pnow := ratSum (regions.map (pw cor)) + (b.pfld PWR_CAP_CFG_P_OTHER : Nat)
  let b := b.modRed (fun r => { r with pleak := leak, pest := est, pmeas := meas, resid := resid, pcor := cor,
                                       level := level, feat := feat, pnow := pnow, updAt := b.now })
  b.each regions (fun b n => b.modR n (fun r => { r with pmSum := 0, pmN := 0 }))

/-- A report of a power in units of 1/u W, saturating in `k` bits; its rounding is not stated. -/
def reportPower (site k u : Nat) (x : Rat) : Nat := (clampI 0 ((2 : Int) ^ k - 1) (rounded site (x * (u : Nat)))).toNat

/-- The window of a cap takes in P_now × Δt at a completion: the bins of W / 64 that have ended before it complete, and the energy
goes to the bin in which the completion falls; a cap that becomes applied starts without bins, and one that is not applied is averaged
all the same, for PWR_CHIP and PWR_AVG (R273, R290). DEDUCED, log 42. -/
def CapWin.add (c : CapWin) (on : Bool) (bin now : Nat) (energy : Rat) : CapWin :=
  let c := if on && !c.applied then { c with bins := [], cur := 0, since := now } else c
  let c := { c with applied := on }
  if now < c.since + bin then { c with cur := c.cur + energy }
  else
    let gone := (now - c.since) / bin
    let zeros : List Rat := List.replicate (min 64 (gone - 1)) 0
    { c with bins := (zeros ++ c.cur :: c.bins).take 64, cur := energy, since := c.since + gone * bin }

/-- A_C: the energy of the 64 most recent bins over the window, a missing bin counting at the cap (R273), and at 0 where no cap is
applied, which the spec does not state: DESIGN CHOICE, log 43. -/
def CapWin.average (c : CapWin) (cap : Nat) (window : Nat) : Rat :=
  let missing := 64 - c.bins.length
  (ratSum c.bins + ((cap * missing : Nat) : Rat) * (window : Nat) / 64) / (window : Nat)

/-- PWR_CAP_SLOW.WIN in ns (R286). DEDUCED, log 43. -/
def Block.slowWindow (b : Block) : Nat := clampN 1 100 (b.pfld PWR_CAP_SLOW_WIN) * 1000000

/-- The slow cap in force: the lower of LIMIT and the budget share, 0 being none (R272). DEDUCED, log 43. -/
def Block.slowCap (b : Block) : Nat :=
  let l := b.pfld PWR_CAP_SLOW_LIMIT
  let s := b.hoop.shareNow
  if l = 0 then s else if s = 0 then l else min l s

/-- The caps and the scale at a run of the reducer (R273, R275, R285, R290). `dt` is the time since the last run.
DEDUCED, log 42. -/
def Block.capScale (b : Block) (dt : Nat) : Block :=
  let fastC := b.pfld PWR_CAP_FAST_LIMIT
  let slowC := b.slowCap
  let w := b.slowWindow
  let b := b.put PWR_CAP_SLOW_INFORCE slowC
  let e : Rat := b.red.pnow * (dt : Nat)
  let b := b.modRed (fun r => { r with
    fast := r.fast.add (fastC != 0) 15625 b.now e
    slow := (if r.win = w then r.slow else { since := b.now }).add (slowC != 0) (w / 64) b.now e
    win := w })
  let af := b.red.fast.average fastC 1000000
  let as := b.red.slow.average slowC w
  let g : Rat := ((atLeast1 (b.pfld PWR_CAP_CFG_GAIN) : Nat) : Rat) / 16
  let tf : Rat := (fastC : Rat) + g * ((fastC : Rat) - af)
  let ts : Rat := (slowC : Rat) + g * ((slowC : Rat) - as)
  let tgt : Option Rat :=
    if fastC = 0 && slowC = 0 then none
    else if slowC = 0 then some tf else if fastC = 0 then some ts else some (min tf ts)
  let fix : Rat := ratSum (regions.map (pw b.red.pleak)) + (b.pfld PWR_CAP_CFG_P_OTHER : Nat)
  let s : Rat := match tgt with
    | none => 4
    | some p => if b.red.pnow - fix < 1 then 4 else max 0 (min 4 ((p - fix) / (b.red.pnow - fix)))
  let b := b.modRed (fun r => { r with scale := s })
  let b := b.put PWR_STATUS_SCALE (min 255 (s * 64).floor.toNat)
  let b := b.put PWR_STATUS_CAP_ACTIVE (if s < 1 then 1 else 0)
  let b := (b.put PWR_CHIP_NOW (reportPower 31 16 16 b.red.pnow)).put PWR_CHIP_AVG_FAST (reportPower 32 16 16 af)
  let b := (b.put PWR_AVG_AVG_SLOW (reportPower 33 16 16 as)).put PWR_AVG_TGT
    (match tgt with | none => 0xFFFF | some p => reportPower 34 16 16 p)
  let b := b.each regions (fun b n =>
    (b.put PWR_REGION_MEAS (reportPower 35 16 1024 (pw b.red.pmeas n)) n).put PWR_REGION_POWER (reportPower 36 16 1024 (pw b.red.pcor n)) n)
  let b := if fastC != 0 && af * 50 > (fastC * 51 : Nat) then b.report srcOVER_FAST 0 else b
  if slowC != 0 && as * 50 > (slowC * 51 : Nat) then b.report srcOVER_SLOW 0 else b

/-- CAP_FLOOR: 500 consecutive frames with s below 1 and every region in RUN at or below CAP_MIN (R275). DEDUCED, log 43. -/
def Block.capFloor (b : Block) : Block :=
  let cond := b.red.scale < 1 && b.runRegions.all (fun n => (b.R n).issue ≤ b.efld PWR_CAP_CFG_CAP_MIN)
  let b := b.modRed (fun r => { r with floorRun := if cond then r.floorRun + 1 else 0 })
  if b.red.floorRun ≥ 500 then b.report srcCAP_FLOOR 0 else b

/-- Energy in µJ added to a counter pair, which keeps what is left of a µJ and wraps modulo 2^64: nothing is lost to rounding, so
that the sums of R282 hold. DESIGN CHOICE, log 9. -/
def Block.addEnergy (b : Block) (a : Nat) (uj : Rat) : Block :=
  let e := uj + b.red.frac.get (fun _ => 0) a
  let v := (b.reg a).toNat + 2 ^ 32 * (b.reg (a + 4)).toNat + e.floor.toNat
  let b := (b.setReg a (BitVec.ofNat 32 v)).setReg (a + 4) (BitVec.ofNat 32 (v / 2 ^ 32))
  b.modRed (fun r => { r with frac := r.frac.set (fun _ => 0) a (e - e.floor) })

/-- The energy of the interval booked to partitions, queues, the unattributed counter and the chip counter (R281).
DEDUCED, log 42. -/
def Block.book (b : Block) (dt : Nat) : Block :=
  let uj (p : Rat) : Rat := p * (dt : Nat) / 1000
  let b := b.each regions (fun b n =>
    let e := uj (pw b.red.pcor n)
    let ps := partitions.filter (fun p => b.covers p n)
    if ps.isEmpty then b.addEnergy PWR_E_UNATTR_E.base e
    else
      let ws := ps.map (fun p => (p, b.partPower p / (b.coverCount p : Nat)))
      let total := ratSum (ws.map (·.2))
      ws.foldl (fun b x =>
        let part := if total = 0 then e / (ps.length : Nat) else e * x.2 / total
        let b := b.addEnergy (PWR_E_PART_E.base + 8 * x.1) part
        if b.pfld PWR_QMAP_VALID x.1 = 1 then b.addEnergy (PWR_E_QUEUE_E.base + 8 * b.pfld PWR_QMAP_QUEUE x.1) part else b) b)
  let other := uj (b.pfld PWR_CAP_CFG_P_OTHER : Nat)
  let b := b.addEnergy PWR_E_UNATTR_E.base other
  b.addEnergy PWR_E_CHIP_E.base (uj (ratSum (regions.map (pw b.red.pcor))) + other)

/-- Idle frames of each region: its partitions' counters are all 0 (R143, R144). -/
def Block.noteIdle (b : Block) : Block :=
  let live := partitions.filter (fun p => b.isMapped p && (List.range 16).any (fun c => b.red.counter p c != 0))
  b.each regions (fun b n =>
    let busy := live.any (fun p => b.covers p n)
    b.modR n (fun r => { r with busy := busy, zeroFrames := if busy then 0 else r.zeroFrames + 1 }))

/-- PWR_CORR.TAU in ns (R269, R289). -/
def Block.tau (b : Block) : Rat := ((atLeast1 (b.pfld PWR_CORR_TAU) * 100000 : Nat) : Rat)

/-- Counter `i` of a frame: lane i mod 4, of 16 bits, of beat i / 4 (R32). -/
def frameCounter (beats : List (BitVec 64)) (i : Nat) : Nat := (beats.getD (i / 4) 0).toNat / 2 ^ (16 * (i % 4)) % 65536

/-- A frame has completed: its counters are the sample in use, the writes that waited for it come into force, and the reducer
runs (R264 to R275, R281, R284). DEDUCED, log 42. -/
def Block.frameDone (b : Block) (beats : List (BitVec 64)) : Block :=
  let dt := b.now - b.red.updAt
  let b := b.modRed (fun r => { r with
    counters := SMap.tab (fun _ => 0) (frameCounter beats) (List.range 1024), cfg := b.regs.filter (fun e => frameDelayed e.1)
    frameAt := b.now, goodFrame := true, held := false, frameB := none })
  let b := b.modHoop (fun h => { h with shareNow := b.shareW })
  (((b.estimate b.tau).capScale dt).book dt).capFloor.noteIdle

/-- A frame that falls while the service domain is held in reset is not booked, and sets GAP, which a chip reset that ends
later does not clear (R282). -/
def Block.missFrame (b : Block) : Block := (b.put PWR_STATUS_GAP 1).modRed (fun r => { r with gapDue := b.inReset })

/-- ACT_FRAME_COMPLETE: the beats from one ACT_SOF on; a frame of other than 256 is discarded and flagged (R32, R34, R282). -/
def execActFrameComplete (t : Nat) (beats : List (BitVec 64)) (s : State) : Host.Outcome State Fault Refusal :=
  s.run (fun b =>
    let b := b.at t
    if b.serviceHeld then (if beats.length = 256 && b.aonUp then b.missFrame else b)
    else if b.clk.svcStopped then b
    else if beats.length != 256 then b.report srcACT_FRAME_ERR 0
    else b.frameDone beats)

/-- ACT_STALE_TIMEOUT: 4 µs since the last good frame, or since acceptance: the last good frame is held (R34, R270). -/
def execActStaleTimeout (t : Nat) (s : State) : Host.Outcome State Fault Refusal :=
  s.run (fun b =>
    let b := b.at t
    if b.serviceUp && b.img.accepted && b.red.frameAt + 4000 ≤ b.now then
      (b.modRed (fun r => { r with held := true })).report srcACT_STALE 0
    else b)

/-- HELD_COUNTER_RUN: every 2 µs on held counters, with τ = 20 µs (R270). That its results show in RDACT and in the power reports,
where R271, R285, R290 and R295 name the last frame completion, is the model's choice: DESIGN CHOICE, log 78. -/
def execHeldCounterRun (t : Nat) (s : State) : Host.Outcome State Fault Refusal :=
  s.run (fun b =>
    let b := b.at t
    if b.serviceUp && b.red.held then
      let dt := b.now - b.red.updAt
      (b.estimate 20000).capScale dt
    else b)

/-- ENERGY_LO_READ: the LO half is returned and its HI half latched (R282). -/
def execEnergyLoRead (addr : Nat) (s : State) : Host.Outcome State Fault Refusal :=
  s.run (fun b =>
    if addr % 8 = 0 && (addr = 0x20020 || addr = 0x20028 || 0x22000 ≤ addr && addr ≤ 0x229F8) then
      let b := b.restartEvent
      { b with rdata := b.reg addr, energyHi := b.energyHi.set (fun _ => none) (addr + 4) (some (b.reg (addr + 4))) }
    else b)

end Sys2Proof.Machine
end

