-- ==== Sys2Proof/Machine/Snapshot.lean ====
section
/-! DEFINITION. The tick's snapshot (R21): the rows of Tables 6-7, 8-1, 9-2 and 15-4 as lanes of 18 bits, the latch, and
the instructions that read them (R181, R225, R471). -/

namespace Sys2Proof.Machine

/-- A lane that holds a rational in C18. -/
def c18 (x : Rat) : Nat := fmtC18.roundRat x

/-- 1.0 or 0 in C18. -/
def c18Bool (v : Bool) : Nat := if v then c18 1 else 0

/-- A VCODE in V. -/
def volts (v : Nat) : Nat := c18 ((v : Rat) / 2000)

/-- The current of logical phase `k` of region `n`, 1/131072 A: the period-average of the last period of a phase that
switches, the model's for a BLIND one, and 0 otherwise (R78, R84, R359). -/
def Block.rowCurrent (b : Block) (n k : Nat) : Int :=
  match b.serving (4 * n + k) with
  | some p => if (b.P p).drive = .off then 0 else (b.P p).hist.headD 0
  | none => 0

/-- The mean duty of a logical phase over the tick, as a fraction of the period. -/
def Block.rowDuty (b : Block) (n k : Nat) : Rat :=
  match b.serving (4 * n + k) with
  | some p => if (b.P p).dutyN = 0 then 0 else ((b.P p).dutySum : Rat) / (256 * (b.P p).dutyN : Nat)
  | none => 0

/-- DET of the loaded image (R470). -/
def Block.det (b : Block) : Bool := b.bit ENG_STATUS_DET

/-- Time since an event in µs: exact, or in deterministic mode whole ticks from the boundary whose snapshot first held it
(R229, R471). -/
def Block.since (b : Block) (crossed first : Option Nat) : Option Rat :=
  match crossed with
  | none => none
  | some t =>
    if b.det then (match first with
      | some k => some (((b.eng.bounds - k) * b.tickNs : Nat) / (1000 : Rat))
      | none => some 0)
    else some (((b.now - t : Nat) : Rat) / 1000)

/-- An RDSNP lane: group `f`, row `r`, region `n` (Tables 6-7 and 15-4). -/
def Block.snpLane (b : Block) (f r n : Nat) : Nat :=
  match f, r with
  | 0, 0 => volts (b.fld REG_VSENSE_VOUT n)
  | 0, 1 => c18 ((((List.range 4).map (b.rowCurrent n)).sum : Int) / (131072 : Rat))
  | 0, 2 => volts (b.fld REG_VSET_APPLIED n)
  | 0, 3 => laneI16 (((b.mapped n).filter (fun p => b.cond p = cSwitching || b.cond p = cBlind)).length : Nat)
  | 1, k => c18 ((b.rowCurrent n k : Int) / (131072 : Rat))
  | 2, k => c18 (b.rowDuty n k)
  | 3, 0 => c18 ((b.guardT n : Int) / (400 : Rat))
  | 3, 1 => laneI16 (b.fld THM_TEMP_BAND n : Nat)
  | 3, 2 => laneI16 (b.fld REG_FIDX_CUR n : Nat)
  | 3, 3 => laneI16 (b.fld REG_FIDX_REQ n : Nat)
  | 4, r =>
    let x := b.R n
    if r = 0 then laneI16 (x.begun.length : Nat)
    else if r = 1 then (if x.tickMin = 64 then 0 else c18 (3 * (32 - (x.tickMin : Rat))))
    else if r = 2 then (if b.det then 0 else laneI16 (match x.begun with | t :: _ => (b.eng.cycleOf t : Nat) | [] => 0))
    else c18Bool x.episode
  | 5, 0 => volts (b.R n).tap
  | 5, 1 => volts (b.R n).remote
  | 5, 2 => volts (b.vin (quadOf n))
  | 5, 3 => c18 ((b.capacity n : Rat) / 2)
  | 6, 0 => laneI16 (b.st n : Nat)
  | 6, 1 => laneI16 (b.fld REG_PSTATE_DEPTH n : Nat)
  | 6, 2 => laneI16 (match b.groupOf n with | some g => (g : Int) | none => -1)
  | 6, 3 => c18Bool (b.bit REG_STATUS_SHED_HELD n)
  | 7, 0 => laneI16 (b.fld HOOP_PACE_PACE_IDX : Nat)
  | 7, 1 => c18 b.shareRat
  | 7, 2 => if n % 64 < b.fld HOOP_CFG_N then laneI16 (readI16 (b.peer (n % 64)).word0) else 0
  | 7, 3 => if n % 64 < b.fld HOOP_CFG_N then laneI16 (readI16 (b.peer (n % 64)).word1) else 0
  | _, _ => 0

/-- LEVEL as a fraction of full rate: code 255 is full rate (Table 2-5). -/
def hintLevel (v : Nat) : Rat := if v = 255 then 1 else (v : Rat) / 256

/-- An RDHINT lane: HINTA rows 0..3 and HINTB rows 4..7 of the region's group (Table 8-1). -/
def Block.hintLane (b : Block) (r n : Nat) : Nat :=
  match b.groupOf n with
  | none => 0
  | some g =>
    let h := b.H g
    match r with
    | 0 => c18 (hintLevel h.level)
    | 1 => c18 (match b.since h.leadAt h.leadB with
        | some x => max (-1000) ((h.lead : Rat) / 1000 - x)
        | none => -1000)
    | 2 => laneI16 (h.tag : Nat)
    | 3 => c18Bool (!h.openBars.isEmpty)
    | 4 => c18 (match b.since h.exAt h.exB with | some x => min 1000 x | none => 1000)
    | 5 => c18 ((b.efld REG_GLAT_WAKE g : Rat) / 10)
    | 6 => c18 (match b.since h.fcAt h.fcB with | some x => min 1000 x | none => 1000)
    | _ => laneI16 (h.count : Nat)

/-- The preferred point in force of a region: VPREF, of which one above 2,100 acts as 2,100, and FPREF of its group and TAG
(R280, R294). -/
def Block.preferred (b : Block) (n : Nat) : Nat × Nat :=
  match b.groupOf n with
  | none => (2100, 63)
  | some g => (min 2100 (b.efld PWR_PREF_VPREF (4 * g + (b.H g).tag)), b.efld PWR_PREF_FPREF (4 * g + (b.H g).tag))

/-- An RDACT lane (Table 9-2). -/
def Block.actLane (b : Block) (r n : Nat) : Nat :=
  let x := b.red
  let perTick (v : Nat) : Nat := c18 ((v * b.tickNs : Nat) / (1000 : Rat))
  if r < 8 then c18 (pw x.feat (weaveOf n * 8 + r))
  else match r with
    | 8 => c18 ((x.level.get (fun _ => 0) n : Nat) : Rat)
    | 9 => c18 (pw x.pcor n)
    | 10 => c18 (pw x.pmeas n)
    | 11 => c18 x.scale
    | 12 => c18 ((b.since (some x.frameAt) x.frameB).getD 0)
    | 13 => c18Bool x.held
    | 14 => c18 (pw x.pleak n)
    | 15 => c18 (pw x.pcor n - pw x.pest n)
    | 16 => c18 (((b.preferred n).1 : Nat) : Rat)
    | 17 => c18 (((b.preferred n).2 : Nat) : Rat)
    | 18 => perTick (max 1 (b.efld PWR_SLOPE_RISE))
    | 19 => perTick (max 1 (b.efld PWR_SLOPE_FALL))
    | 20 => c18 ((b.efld PWR_SLOPE_FLOOR_M : Nat) : Rat)
    | 21 => c18Bool (b.efld PWR_SLOPE_FLOOR_EN = 1)
    | 22 => c18 ((b.efld PWR_CAP_CFG_CAP_MIN : Nat) : Rat)
    | _ => 0

/-- Lane `n` of snapshot row `r` of 72, in the order of a trace record: RDSNP groups, RDHINT, RDACT (R480). -/
def Block.lane (b : Block) (r n : Nat) : Nat :=
  if r < 32 then b.snpLane (r / 4) (r % 4) n else if r < 40 then b.hintLane (r - 32) n else b.actLane (r - 40) n

/-- The block as its snapshot shows it. -/
def Block.withSnap (b : Block) : Block :=
  let s := b.snap
  { b with now := s.now, regs := s.regs, eff := s.eff, rgn := s.rgn, ph := s.ph, wv := s.wv, hint := s.hint, hoop := s.hoop,
           red := s.red, thm := s.thm, eng := { b.eng with boundAt := s.prevAt, stopCycle := s.prevStop, firstDue := s.first } }

/-- A message may move from the send queue into the transmit buffer: the member is in the ring, no block warm reset runs, and the
buffer and the PROG rate allow (R465, R467). -/
def Block.maySend (b : Block) : Bool :=
  b.hoop.bypOpen && !b.restarting && decide (b.hoop.tx.length < 16) &&
  !b.hoop.tx.any (fun x => x.frame.ty = mProg && !x.started) && b.sentWithin mProg 2 = 0 && !b.eng.sendQ.isEmpty

/-- The snapshot is latched; `prev` is the time of the previous boundary (R21). DESIGN CHOICE, log 32. -/
def Block.latch (b : Block) : Block :=
  { b with snap := { now := b.now, regs := b.regs, eff := b.eff, rgn := b.rgn, ph := b.ph, wv := b.wv, hint := b.hint,
                     hoop := b.hoop, red := b.red, thm := b.thm, prevAt := b.eng.boundAt, prevStop := b.eng.stopCycle, first := b.eng.firstDue } }

/-- A row of the snapshot for the trace: 256 lanes, lane i in bits [18i + 17 : 18i]. -/
def Block.traceRow (b : Block) (r : Nat) : Nat := packNat 18 (regions.map (b.lane r))

/-- Row `r` of the running program's inputs in slice `q`: +0 in INIT, the recorded rows during a replay, else the
snapshot's (R181, R191, R488). DEDUCED, log 21. -/
def Block.inputRow (b : Block) (r q : Nat) : BRow :=
  if b.eng.run = .init then 0
  else if b.bit TRC_REPLAY_BUSY then BitVec.ofNat 1152 (b.trc.rpRows.getD r 0 / 2 ^ (1152 * q))
  else packRow 18 (lanes.map (fun i => b.withSnap.lane r (64 * q + i)))

/-- Four rows read into a block (R181). DEDUCED, log 21. -/
def Block.readRows (b : Block) (bd first : Nat) (row : Block → Nat → Nat → BRow) : Block :=
  b.modEng (fun e => slices.foldl (fun e q => (List.range 4).foldl (fun e r => e.setRow q bd r (row b (first + r) q)) e) e)

/-- RDSNP (R181). -/
def execRdsnp (o : ROp) (s : State) : Host.Outcome State Fault Refusal :=
  s.run (fun b => b.engine (.rdsnp o) 0 (fun b => b.readRows o.bd (4 * o.fn) Block.inputRow))

/-- RDHINT (R181). -/
def execRdhint (o : ROp) (s : State) : Host.Outcome State Fault Refusal :=
  s.run (fun b => b.engine (.rdhint o) 0 (fun b => b.readRows o.bd (32 + 4 * o.fn) Block.inputRow))

/-- RDACT (R271). -/
def execRdact (o : ROp) (s : State) : Host.Outcome State Fault Refusal :=
  s.run (fun b => b.engine (.rdact o) 0 (fun b => b.readRows o.bd (40 + 4 * o.fn) Block.inputRow))

/-- RDASY: the live value at issue, not the snapshot; +0 in INIT (R191, R225). -/
def execRdasy (o : ROp) (s : State) : Host.Outcome State Fault Refusal :=
  s.run (fun b => b.engine (.rdasy o) 0 (fun b => b.readRows o.bd (4 * o.fn) (fun b r q =>
    if b.eng.run = .init then 0 else packRow 18 (lanes.map (fun i => b.lane r (64 * q + i))))))

/-- The message at the head of the send queue moves into the transmit buffer as a PROG frame (R465). -/
def Block.moveHead (b : Block) : Block :=
  match b.eng.sendQ with
  | [] => b
  | (w0, w1) :: r => (b.sendFrame mProg 0 (bytes16 w0 ++ bytes16 w1)).modEng (fun e => { e with sendQ := r })

/-- The send queue moves as far as the buffer and the PROG rate allow, and what remains stays (R465). Out of the ring nothing moves:
DESIGN CHOICE, log 76. -/
def Block.moveSends (b : Block) : Block := if b.maySend then b.moveHead else b

/-- RSEND: a message of words 0 and 1, rows 0 and 1 of BA in lane 0 of slice 0, joins the queue of 8; with the queue full
it stalls until a slot frees, `freed` cycles after its issue, at most 24, and is then discarded with RING_DROP (R183, R465). Its stall holds the output unit
and no other, which R183 leaves open: DESIGN CHOICE, log 71. -/
def Block.rsend (b : Block) (o : ROp) (freed : Option Nat) : Block :=
  let full := b.eng.sends.length + b.eng.sendQ.length ≥ 8
  let frees := match freed with | some c => decide (c ≤ 24) && b.maySend | none => false
  let wait := if full then (if frees then freed.getD 24 else 24) else 0
  b.engine (.rsend o freed) wait (fun b =>
    if full && !frees then b.report srcRING_DROP 0
    else
      let b := if full then b.moveHead else b
      b.modEng (fun e =>
        let w (r : Nat) : Nat := laneOf (e.row 0 o.ba r) 18 0 % 65536
        { e with sends := e.sends ++ [(w 0, w 1)] }))

/-- RSEND (R183). -/
def execRsend (o : ROp) (freed : Option Nat) (s : State) : Host.Outcome State Fault Refusal :=
  s.run (fun b => b.rsend o freed)

end Sys2Proof.Machine
end

