-- ==== Sys2Proof/Machine/Trace.lean ====
section
/-! DEFINITION. The trace recorder, its exporting, and the on-chip replay (chapter 16). -/

namespace Sys2Proof.Machine

/-! Record kinds (Table 16-6) and recorder modes (Table 16-4). -/
def kTick : Nat := 1
def kKey : Nat := 2
def kState : Nat := 3
def kGap : Nat := 4
def kEnd : Nat := 5
def modeRing : Nat := 1
def modeOneshot : Nat := 2

/-- The block with its trace recorder changed. -/
def Block.modTrc (b : Block) (f : Trc → Trc) : Block := { b with trc := f b.trc }

/-- z of a change of a `w`-bit lane (R480). -/
def zigzag (w old new : Nat) : Nat :=
  let d := (new + 2 ^ w - old % 2 ^ w) % 2 ^ w
  if d < 2 ^ (w - 1) then 2 * d else 2 * (2 ^ w - d) - 1

/-- The nibbles of z: 3 bits each, least significant first, bit 3 set when another follows (R480). -/
def nibbles : Nat → Nat → List Nat
  | 0, z => [z % 8]
  | fuel + 1, z => if z < 8 then [z] else (z % 8 + 8) :: nibbles fuel (z / 8)

/-- Nibbles packed two to a byte, the first low, padded to a byte (R480). -/
def packNibbles : List Nat → List Byte
  | [] => []
  | [x] => [BitVec.ofNat 8 x]
  | x :: y :: r => BitVec.ofNat 8 (x + 16 * y) :: packNibbles r

/-- A delta row: the bitmap of the changed lanes and their codes (R480). DEDUCED, log 51. -/
def deltaRow (w : Nat) (old new : List Nat) : List Byte :=
  let pairs := List.zip old new
  let bitmap := packNat 1 (pairs.map (fun p => if p.1 = p.2 then 0 else 1))
  leBytes (pairs.length / 8) bitmap ++
    packNibbles ((pairs.filter (fun p => p.1 != p.2)).flatMap (fun p => nibbles 7 (zigzag w p.1 p.2)))

/-- The 256 lanes of a trace row. -/
def rowLanes (row : Nat) : List Nat := regions.map (fun i => row / 2 ^ (18 * i) % 2 ^ 18)

/-- A row coded against the one before: its mode of R480 and its bytes, in the shorter of delta and raw. DEDUCED, log 51. -/
def codeRow (old new : Nat) : Nat × List Byte :=
  if old = new then (0, [])
  else
    let d := deltaRow 18 (rowLanes old) (rowLanes new)
    if d.length ≤ 576 then (1, d) else (2, leBytes 576 new)



/-- An entry of the event log (Table 16-7). -/
def eventBytes : TrcEvent → List Byte
  | .hint c w => [1, 0] ++ leBytes 2 c ++ leBytes 8 w.toNat
  | .ring l c f => [2, BitVec.ofNat 8 l] ++ leBytes 2 c ++ frameBytes f
  | .droop n s e w => [3, BitVec.ofNat 8 n] ++ leBytes 2 s ++ leBytes 2 e ++ [BitVec.ofNat 8 w, 0]
  | .act m body => [4, BitVec.ofNat 8 m] ++ leBytes 2 body.length ++ body
  | .hostw c a d => [5, 0] ++ leBytes 2 c ++ leBytes 4 a ++ leBytes 4 d.toNat

/-- The body of a TICK or KEY record: mode map, coded rows, event log (R480, R481). -/
def recBody (old new : List Nat) (log : List TrcEvent) : List Byte :=
  let coded := (List.zip old new).map (fun p => codeRow p.1 p.2)
  leBytes 18 (packNat 2 (coded.map (·.1))) ++ coded.flatMap (·.2) ++ leBytes 2 log.length ++ log.flatMap eventBytes

/-- Words of a record of header and body (R479). -/
def recLen (body : List Byte) : Nat := 1 + (body.length + 15) / 16

/-- The words of a STATE record (R484). -/
def stateWords : Nat := 23548

/-- The 16-byte header (Table 16-5); a GAP record's bytes 8..11 hold the ticks lost. -/
def TrcRec.header (r : TrcRec) : List Byte :=
  [BitVec.ofNat 8 r.kind, BitVec.ofNat 8 r.flags] ++ leBytes 2 r.len ++ leBytes 4 r.tickLo ++
  (if r.kind = kGap then leBytes 4 r.twait else leBytes 2 r.twait ++ [BitVec.ofNat 8 r.stall, BitVec.ofNat 8 r.dropped]) ++
  leBytes 4 r.sig

/-- The head and rows of a STATE record (Table 16-8). -/
def TrcState.bytes (x : TrcState) : List Byte :=
  leBytes 8 x.tickno ++ leBytes 8 x.seed ++ leBytes 8 x.chip.toNat ++ leBytes 4 x.gen.toNat ++
  (x.digest.take 4).flatMap (fun w => leBytes 4 w.toNat) ++
  [BitVec.ofNat 8 x.tickLen, BitVec.ofNat 8 x.arrays, BitVec.ofNat 8 x.det, BitVec.ofNat 8 x.flags] ++
  slices.flatMap (fun q => (List.range 5886).flatMap (fun w =>
    leBytes 16 (x.sm.get (fun _ => 0) (q * 8192 + w)).toNat))

/-- The bytes of a record as they are exported, padded to whole words. -/
def TrcRec.bytes (r : TrcRec) : List Byte :=
  let all := r.header ++ (match r.state with | some x => x.bytes | none => r.body)
  all ++ List.replicate (16 * r.len - all.length) 0

/-- The records up to an END record are there, with none lost. -/
def endAhead : List TrcRec → Bool
  | [] => false
  | r :: rest => r.kind = kEnd || (r.kind != kGap && endAhead rest)

/-- The records from the first STATE record on. -/
def fromState (mem : List TrcRec) : List TrcRec := mem.dropWhile (fun r => r.kind != kState)

/-- Trace memory holds a STATE record and every record after it up to an END record (R488). -/
def replayable (mem : List TrcRec) : Bool :=
  match fromState mem with
  | _ :: rest => endAhead rest
  | [] => false

/-- FILL and REPLAYABLE follow trace memory (Table 16-11). -/
def Block.syncTrace (b : Block) : Block :=
  (b.put TRC_STATUS_FILL b.trc.fill).put TRC_STATUS_REPLAYABLE (if replayable b.trc.mem then 1 else 0)

/-- The oldest records leave until `need` words are free (R478). -/
def Trc.makeRoom (need : Nat) : Nat → Trc → Trc
  | 0, t => t
  | fuel + 1, t => if t.fill + need ≤ traceWords then t else Trc.makeRoom need fuel t.dropOldest

/-- A record appended in RING mode. Records overwritten before exporting are lost: TRC_LOSS is raised, and a GAP is written, after which
the record stands, a KEY (R478, R482, R485). That the GAP stands there, where the recorder writes, is the model's choice:
DESIGN CHOICE, log 51. -/
def Block.appendRing (b : Block) (r : TrcRec) : Block :=
  if b.bit TRC_CTL_EXPORT && b.trc.fill + r.len > traceWords then
    let t := b.trc.makeRoom (r.len + 1) (b.trc.mem.length + 1)
    let lost := b.trc.mem.take (b.trc.mem.length - t.mem.length)
    (b.modTrc (fun _ => { t with mem := t.mem ++ [gapRec lost 1, r] })).report srcTRC_LOSS 0
  else
    b.modTrc (fun t => { t.makeRoom r.len (t.mem.length + 1) with mem := (t.makeRoom r.len (t.mem.length + 1)).mem ++ [r] })

/-- The recording ends with an END record (R486); the mode that was written stays. DEDUCED, log 51. -/
def Block.endRecording (b : Block) : Block :=
  let r : TrcRec := { kind := kEnd, tickLo := b.tickno % 2 ^ 32, flags := b.fld ENG_STATUS_DET * 8 + b.arrays * 16 }
  let b := if b.trc.ring || b.trc.fill ≥ traceWords then b.appendRing r
           else b.modTrc (fun t => { t with mem := t.mem ++ [r] })
  let b := (b.put TRC_STATUS_RECORDING 0).put TRC_STATUS_ARMED 0
  (b.modTrc (fun t => { t with stopDue := false, trigLeft := none, copying := false })).syncTrace

/-- The signature of a tick: CRC-32 over its output buffer and the messages it queued (R483). -/
def Eng.signature (e : Eng) : BitVec 32 :=
  let lane (f r n : Nat) : List Byte := leBytes 2 (e.outBuf.get (fun _ => 0) (outKey f r n))
  let fields := (List.range 7).flatMap (fun f => (List.range (fieldRows f)).flatMap (fun r => regions.flatMap (lane f r)))
  crc32 (fields ++ e.sends.flatMap (fun m => leBytes 2 m.1 ++ leBytes 2 m.2))

/-- The rows that TRC_CFG.GROUPS selects in RING mode (Table 16-13). -/
def rowSelected (groups r : Nat) : Bool :=
  let bit := if r < 32 then (if r / 4 = 1 || r / 4 = 2 then 1 else 0) else if r < 40 then 2 else 3
  groups / 2 ^ bit % 2 = 1

/-- The ABORT, CAUSE, DET and ARRAYS flags of a tick's record (Table 16-5). -/
def Block.recFlags (b : Block) (aborted : Bool) : Nat :=
  (if aborted then 1 + 2 * b.eng.cause else 0) + 8 * b.fld ENG_STATUS_DET + 16 * b.arrays

/-- The record of the tick that has ended, coded against `old` (R479 to R483). DEDUCED, log 51. -/
def Block.tickRecord (b : Block) (kind : Nat) (aborted : Bool) (old new : List Nat) (log : List TrcEvent) : TrcRec :=
  let body := recBody old new log
  { kind := kind, flags := b.recFlags aborted, len := recLen body, tickLo := b.tickno % 2 ^ 32
    twait := if aborted then 0x3FF else b.eng.twaitAt.getD 0
    stall := min 255 b.eng.stalls
    dropped := min 255 b.trc.heldDropped
    sig := if aborted then 0 else b.eng.signature.toNat
    body := body, rows := new }

/-- The snapshot rows of the tick. -/
def Block.snapRows (b : Block) : List Nat :=
  let s := b.withSnap
  (List.range 72).map s.traceRow

/-- A row of zeros for each of the 72. -/
def zeroRows : List Nat := List.replicate 72 0

/-- The recorder at the end of a tick, before the next snapshot (R478, R482). In RING mode one tick in DECIM is recorded,
with the rows selected; in ONESHOT mode every tick with every row, until memory holds no room. DEDUCED, log 51. -/
def Block.recordTick (b : Block) (aborted : Bool) : Block :=
  if !b.bit TRC_STATUS_RECORDING then b
  else if b.trc.ring then
    let skip := b.trc.since != 0
    let b := b.modTrc (fun t => { t with since := (t.since + 1) % max 1 (b.efld TRC_CFG_DECIM) })
    if skip then b
    else
      let g := b.efld TRC_CFG_GROUPS
      let prev := if b.trc.rows.isEmpty then zeroRows else b.trc.rows
      let log := if g / 16 % 2 = 1 then b.trc.heldEvents else []
      let make (key : Bool) : TrcRec :=
        let old := if key then zeroRows else prev
        let all := b.snapRows
        let new := (List.range 72).map (fun r => if rowSelected g r then all.getD r 0 else old.getD r 0)
        b.tickRecord (if key then kKey else kTick) aborted old new log
      let r := make (b.trc.key || b.tickno % 256 = 0)
      let lossy := b.bit TRC_CTL_EXPORT && b.trc.fill + r.len > traceWords
      let r := if lossy then make true else r
      ((b.appendRing r).modTrc (fun t => { t with rows := r.rows, key := false })).syncTrace
  else
    let old := if b.trc.key then zeroRows else b.trc.rows
    let r := b.tickRecord (if b.trc.key then kKey else kTick) aborted old b.snapRows b.trc.heldEvents
    if b.trc.fill + r.len + 1 > traceWords then (b.put TRC_STATUS_FULL 1).endRecording
    else (b.modTrc (fun t => { t with mem := t.mem ++ [r], rows := r.rows, key := false })).syncTrace

/-- The trigger of RING mode at a boundary: armed when the source becomes pending, then counted down (R478). -/
def Block.trigTick (b : Block) : Block :=
  let src := b.efld TRC_CFG_TRIG_SRC
  let now := b.pendingSrc src
  let on := b.efld TRC_CFG_TRIG_EN = 1 && b.trc.ring && b.bit TRC_STATUS_RECORDING
  b.modTrc (fun t => { t with
    trigSeen := now
    trigLeft := if !on then none else match t.trigLeft with
      | some k => some (k - 1)
      | none => if now && !t.trigSeen then some (16 * b.efld TRC_CFG_POST) else none })

/-- TRACE_TRIGGER_STOP: POST × 16 ticks after the trigger the recording stops (R478). -/
def execTraceTriggerStop (t : Nat) (s : State) : Host.Outcome State Fault Refusal :=
  s.run (fun b =>
    let b := b.at t
    if b.trc.trigLeft = some 0 then (b.put TRC_STATUS_TRIGGERED 1).endRecording else b)

/-- Engine cycles of a time after the boundary before the snapshot's, or 0xFFFF before it (Table 16-7). -/
def Block.logCycle (b : Block) (t : Nat) : Nat := if t < b.eng.boundAt then 0xFFFF else b.eng.cycleOf t

/-- The droop entries of the coming snapshot (Table 16-7). -/
def Block.droopEvents (b : Block) : List TrcEvent :=
  regions.flatMap (fun n =>
    let r := b.R n
    r.epLog.map (fun e => TrcEvent.droop n (b.logCycle e.1) (b.logCycle e.2.1) e.2.2) ++
      (if r.episode then [TrcEvent.droop n (b.logCycle r.epStart) 0xFFFF r.epMin] else []))

/-- The activity entry of a frame that enters the coming snapshot: its 1,024 counters against the previous frame logged,
delta or raw, whichever is shorter (Table 16-7). -/
def actEvent (old new : SMap Nat) : TrcEvent :=
  let list (m : SMap Nat) : List Nat := (List.range 1024).map (fun i => m.get (fun _ => 0) i)
  let d := deltaRow 16 (list old) (list new)
  if d.length ≤ 2048 then .act 1 d else .act 2 ((list new).flatMap (leBytes 2))

/-- What has entered the snapshot is closed into its event log; `frame` tells whether an activity frame enters it
(R481). -/
def Block.closeLog (b : Block) (frame : Bool) : Block :=
  let all := b.trc.events ++ b.droopEvents ++ (if frame then [actEvent b.trc.counters b.red.counters] else [])
  b.modTrc (fun t => { t with
    heldEvents := all.take 255
    heldDropped := t.dropped + (all.length - 255)
    events := [], dropped := 0
    counters := if frame then b.red.counters else t.counters })

/-- A RING recording starts (R478). -/
def Block.startRing (b : Block) : Block :=
  (b.put TRC_STATUS_RECORDING 1).modTrc (fun t => { t with
    ring := true, key := true, since := 0, stopDue := false, copying := false, trigLeft := none, rows := [], trigSeen := b.pendingSrc (b.efld TRC_CFG_TRIG_SRC) })

/-- A one-shot recording is accepted: trace memory is discarded and the STATE record is copied (R486). -/
def Block.startOneshot (b : Block) : Block :=
  let b := (((b.put TRC_STATUS_RECORDING 0).put TRC_STATUS_ARMED 0).put TRC_CTL_MODE modeOneshot)
  (b.modTrc (fun t => { t with mem := [], base := 0, ring := false, rows := [], key := true, since := 0, stopDue := false,
                               trigLeft := none, copying := true })).syncTrace

/-- A recording runs, waits for its resume, or is being prepared. DEDUCED, log 51. -/
def Block.recordingOn (b : Block) : Bool := b.bit TRC_STATUS_RECORDING || b.bit TRC_STATUS_ARMED || b.trc.copying

/-- A write of TRC_CTL: EXPORT and HOLD_INIT are stored; STOP, or OFF, ends a recording at the next boundary; RING starts
one; ONESHOT starts one, anew where one runs, from a halt alone; a reserved mode is refused. RING, or with STOP any mode, written again
while its recording runs asks for nothing. While a re-characterised table is staged no recording starts (R432, R478, R486). DEDUCED, log 51. -/
def Block.trcCtl (b : Block) (data : Word) : Block :=
  let mode := Fld.get TRC_CTL_MODE data
  let b := (b.put TRC_CTL_EXPORT (Fld.get TRC_CTL_EXPORT data)).put TRC_CTL_HOLD_INIT (Fld.get TRC_CTL_HOLD_INIT data)
  let b := if data.getLsbD 0 && b.recordingOn then b.modTrc (fun t => { t with stopDue := true }) else b
  if mode = b.fld TRC_CTL_MODE && (b.recordingOn && (mode != modeOneshot || data.getLsbD 0) || mode = 0) then b
  else if mode = 0 then
    (if b.recordingOn then b.modTrc (fun t => { t with stopDue := true }) else b).put TRC_CTL_MODE 0
  else if mode = 3 || b.img.rcHold || (mode = modeOneshot && b.fld ENG_STATUS_STATE != eHalted) then
    b.put TRC_STATUS_REFUSED 1
  else if mode = modeRing then ((b.put TRC_STATUS_ARMED 0).put TRC_CTL_MODE modeRing).startRing
  else b.startOneshot

/-- A write of TRC_CTL as a row of its own: nothing when the word does not ask for it. -/
def Block.trcCtlRow (b : Block) (data : Word) (asks : Bool) : Block :=
  if asks then b.hostWrite TRC_CTL_MODE.base data Block.trcCtl else b

/-- TRC_ONESHOT (R486). -/
def execTrcOneshot (data : Word) (s : State) : Host.Outcome State Fault Refusal :=
  s.run (fun b => b.trcCtlRow data (Fld.get TRC_CTL_MODE data = modeOneshot))

/-- TRC_RING (R478). -/
def execTrcRing (data : Word) (s : State) : Host.Outcome State Fault Refusal :=
  s.run (fun b => b.trcCtlRow data (Fld.get TRC_CTL_MODE data = modeRing))

/-- TRC_MODE_OFF (R486). -/
def execTrcModeOff (data : Word) (s : State) : Host.Outcome State Fault Refusal :=
  s.run (fun b => b.trcCtlRow data (Fld.get TRC_CTL_MODE data = 0))

/-- TRC_STOP (R486). -/
def execTrcStop (data : Word) (s : State) : Host.Outcome State Fault Refusal :=
  s.run (fun b => b.trcCtlRow data (Fld.get TRC_CTL_STOP data = 1))

/-- The slice flags as TRC_FLAGS shows them: bit 2q INV, bit 2q + 1 OVF (R493). -/
def Eng.sliceFlags (e : Eng) : Nat :=
  slices.foldl (fun a q => a + (if e.inv.getLsbD q then 4 ^ q else 0) + (if e.ovf.getLsbD q then 2 * 4 ^ q else 0)) 0

/-- The flags of the slices set from TRC_FLAGS. -/
def Eng.setFlags (e : Eng) (v : Nat) : Eng :=
  { e with inv := BitVec.ofNat 4 (packNat 1 (slices.map (fun q => v / 4 ^ q % 2)))
           ovf := BitVec.ofNat 4 (packNat 1 (slices.map (fun q => v / (2 * 4 ^ q) % 2))) }

/-- The STATE record of the halted engine (R484). -/
def Block.stateRecord (b : Block) : TrcRec :=
  let x : TrcState :=
    { tickno := b.tickno, seed := (b.reg TRC_SEED_LO_SEED_LO.base).toNat + 2 ^ 32 * (b.reg TRC_SEED_HI_SEED_HI.base).toNat
      chip := Config.chipId, gen := b.reg IMG_GEN_GENERATION.base
      digest := (List.range 4).map (fun i => b.reg (IMG_DIGEST_DIGEST.base + 4 * i))
      tickLen := b.fld ENG_STATUS_TICKLEN, arrays := b.arrays, det := b.fld ENG_STATUS_DET, flags := b.eng.sliceFlags
      sm := b.eng.sm.filter (fun e => e.1 % 8192 < 5886) }
  { kind := kState, flags := 8 * b.fld ENG_STATUS_DET + 16 * b.arrays, len := stateWords, tickLo := b.tickno % 2 ^ 32, state := some x }

/-- STATE_RECORD_COPY_DONE: the record is in trace memory, and the recorder waits for the resume (R486). -/
def execStateRecordCopyDone (s : State) : Host.Outcome State Fault Refusal :=
  s.run (fun b =>
    if !b.trc.copying then b
    else ((b.modTrc (fun t => { t with mem := [b.stateRecord], copying := false })).put TRC_STATUS_ARMED 1).syncTrace)

/-- Words of the host ring: 2^SIZE_LOG2 bytes, SIZE_LOG2 held within 16..36 (R485, Table 16-14). -/
def Block.expWords (b : Block) : Nat := 2 ^ (clampN 16 36 (b.fld TRC_EXP_BASE_HI_SIZE_LOG2) - 4)

/-- The host address of ring word offset `o` (R485). -/
def Block.expAddr (b : Block) (o : Nat) : Nat :=
  b.fld TRC_EXP_BASE_LO_BASE_MID * 4096 + b.fld TRC_EXP_BASE_HI_BASE_HI * 2 ^ 32 + 16 * (o % b.expWords)

/-- The host ring has room for `n` words, the read pointer's word counted as occupied (R485). -/
def Block.expRoom (b : Block) (n : Nat) : Bool :=
  let w := (b.reg TRC_EXP_WPTR_WPTR.base).toNat
  let r := (b.reg TRC_EXP_RPTR_RPTR.base).toNat
  (w + 2 ^ 32 - r) % 2 ^ 32 + n < b.expWords

/-- TRACE_RECORD_EXPORT: the oldest whole record goes out when the host is ready and its ring has room; WPTR advances,
and its trace memory is free (R50, R485). Not while a re-characterised table is staged (R432). -/
def Block.exportRecord (b : Block) : Block :=
  match b.trc.mem with
  | [] => b
  | r :: _ =>
    if !b.bit TRC_CTL_EXPORT || b.img.rcHold || !b.expRoom r.len then b
    else
      let w := b.fld TRC_EXP_WPTR_WPTR
      let words := (List.range r.len).map (fun i => b.expAddr (w + i))
      let b := b.put TRC_EXP_WPTR_WPTR (w + r.len)
      (b.modTrc (fun t => { t.dropOldest with sent := words.zip (chunks 16 r.bytes) })).syncTrace

/-- TRACE_RECORD_EXPORT (R485). -/
def execTraceRecordExport (ready : Bool) (s : State) : Host.Outcome State Fault Refusal :=
  s.run (fun b => if ready then b.exportRecord else b)

/-- A write of TRC_TICKSET_HI: TICKNO from both halves while HALTED (R492). -/
def Block.tickset (b : Block) (data : Word) : Block :=
  if b.fld ENG_STATUS_STATE = eHalted then b.setTickno (b.trc.setLo + 2 ^ 32 * data.toNat) else b.put TRC_STATUS_REFUSED 1

/-- TRC_TICKSET (R492). -/
def execTrcTickset (data : Word) (s : State) : Host.Outcome State Fault Refusal :=
  s.run (fun b => b.hostWrite TRC_TICKSET_HI_TICK_HI.base data Block.tickset)

/-- A write of TRC_FLAGS: the slice flags while HALTED, of which those set show in ENG_ARITH (R217, R227, R493). -/
def Block.flagsWrite (b : Block) (data : Word) : Block :=
  let v := data.toNat % 256
  if b.fld ENG_STATUS_STATE = eHalted then
    (b.modEng (fun e => e.setFlags v)).each slices (fun b q => b.noteFlags q (v / 4 ^ q % 2 = 1) (v / (2 * 4 ^ q) % 2 = 1))
  else b.put TRC_STATUS_REFUSED 1

/-- TRC_FLAGS_WRITE (R493). -/
def execTrcFlagsWrite (data : Word) (s : State) : Host.Outcome State Fault Refusal :=
  s.run (fun b => b.hostWrite TRC_FLAGS_SLICE_FLAGS.base data Block.flagsWrite)

/-- A program starts on cleared block registers and accumulators, with S0..S7 as INIT left them and `cycle0` stall cycles
at its first cycle (R173, R186, R190). DEDUCED, log 52. -/
def Eng.startProgram (e : Eng) (run : Run) (entry cycle0 : Nat) : Eng :=
  let scal := if run = .init then [] else
    slices.foldl (fun m q => (List.range 8).foldl (fun m i =>
      SMap.set (fun _ => 0) m (q * 16 + i) (e.saved.get (fun _ => 0) (q * 16 + i))) m) e.scal
  { e with run := run, pc := entry, loopLeft := 0, pipe := { next := cycle0 }, cycle0 := cycle0, trail := [], fetched := [], blk := [], acc := [], scal := scal,
           wrote := [], sends := [], events := [], prngJ := 0, stalls := cycle0, twaitAt := none, ueMark := false,
           mismatch := false, scrubHit := [], hostHit := [] }

/-- The state memory of a STATE record replaces rows 0..653 of every bank (R488). -/
def Eng.loadState (e : Eng) (x : TrcState) : Eng :=
  let rest := e.sm.filter (fun w => !(w.1 % 8192 < 5886))
  ({ e with sm := x.sm.foldl (fun m w => m.set (fun _ => 0) w.1 w.2) rest, smPend := [] } : Eng).setFlags x.flags

/-- A write of TRC_REPLAY: START runs the on-chip replay, or is refused (R488). DEDUCED, log 52. -/
def Block.replayStart (b : Block) (data : Word) : Block :=
  let a := TRC_REPLAY_START.base
  let b := (b.writeFlags a data).storeWritable a data
  if !data.getLsbD 31 then b
  else
    match fromState b.trc.mem with
    | { state := some x, .. } :: rest =>
      if b.fld ENG_STATUS_STATE = eHalted && b.fld TRC_CTL_MODE = 0 && b.bit TRC_STATUS_REPLAYABLE && b.arrays = x.arrays then
        let b := (((b.put TRC_REPLAY_BUSY 1).put TRC_REPLAY_DONE 0).put TRC_REPLAY_MISMATCH 0).put TRC_REPLAY_FIRST 0
        let b := (b.modEng (fun e => e.loadState x)).setTickno x.tickno
        b.modTrc (fun t => { t with rest := rest, cur := none, shadow := b.eng.outCom, spoiled := false
                                    rpKey := some (BitVec.ofNat 64 x.seed ^^^ x.chip) })
      else b.put TRC_REPLAY_REFUSED 1
    | _ => b.put TRC_REPLAY_REFUSED 1

/-- TRC_REPLAY_START (R488). -/
def execTrcReplayStart (data : Word) (s : State) : Host.Outcome State Fault Refusal :=
  s.run (fun b => b.hostWrite TRC_REPLAY_START.base data Block.replayStart)

/-- The results of a replay during which a register was written are unpredictable (R391, Table 13-4). DESIGN CHOICE, log 7. -/
def Block.freeResults (b : Block) : Block :=
  if !b.trc.spoiled then b
  else
    let x := b.draw
    let y := x.2.draw
    (y.2.put TRC_REPLAY_MISMATCH x.1.toNat).put TRC_REPLAY_FIRST y.1.toNat

/-- The replayed tick ends: its signature is compared, and its stores commit unless the record marks it aborted (R487,
R488). DEDUCED, log 52. -/
def Block.replayJudge (b : Block) (r : TrcRec) : Block :=
  let aborted := r.flags % 2 = 1
  let ok := b.eng.twaitAt.isSome && !b.eng.ueMark && !b.eng.mismatch
  let differs := !aborted && (!ok || b.eng.signature.toNat != r.sig)
  let b := if !differs then b
    else
      let b := if b.fld TRC_REPLAY_MISMATCH = 0 then b.put TRC_REPLAY_FIRST b.tickno else b
      b.incrSat TRC_REPLAY_MISMATCH
  if aborted || !ok then b.modEng (fun e => { e with smPend := [], outBuf := b.trc.shadow })
  else (b.modEng Eng.commitRows).modTrc (fun t => { t with shadow := b.eng.outBuf })

/-- The replay ends: DONE, and a block warm reset that does not count toward escalation (R488). DEDUCED, log 52. -/
def Block.replayDone (b : Block) : Block :=
  let b := (b.put TRC_REPLAY_BUSY 0).put TRC_REPLAY_DONE 1
  let b := b.modTrc (fun t => { t with rest := [], cur := none, rpKey := none, shadow := [], rpRows := [] })
  let b := b.modEng Eng.dropTick
  if b.mayRestart then b.warmReset else b

/-- REPLAY_TICK: the next recorded tick starts on its recorded snapshot (R488). DEDUCED, log 52. -/
def Block.replayTick (b : Block) : Block :=
  if !b.bit TRC_REPLAY_BUSY then b
  else
    let b := (match b.trc.cur with | some r => b.replayJudge r | none => b).freeResults
    match b.trc.rest with
    | r :: rest =>
      if r.kind = kTick || r.kind = kKey then
        let b := b.setTickno (b.tickno + 1)
        let b := b.modTrc (fun t => { t with rest := rest, cur := some r, rpRows := r.rows })
        b.modEng (fun e => ({ e with outBuf := b.trc.shadow }).startProgram .tick e.tickEntry 0)
      else b.replayDone
    | [] => b.replayDone

/-- REPLAY_TICK (R488). -/
def execReplayTick (t : Nat) (s : State) : Host.Outcome State Fault Refusal := s.run (fun b => (b.at t).replayTick)

end Sys2Proof.Machine
end

