-- ==== Sys2Proof/Machine/Journal.lean ====
section
/-! DEFINITION. The journal (chapter 14): commit records, commits and their flash operations, the staging of a
re-characterised table, and the hold of minimum safe mode (R426 to R432, R420). -/

namespace Sys2Proof.Machine

/-- Offset of a kind's area in a bank, and its size (Tables 14-1 and 14-10). -/
def areaOf (k : Nat) : Nat × Nat :=
  [(0x01040000, 0x10000), (0x01050000, 0x1000), (0x01060000, 0x1000), (0x01070000, 0x40000)].getD k (0, 0)

/-- Flash address of a bank (R409), and of its area of commit records. -/
def bankBase (x : Nat) : Nat := 0x02000000 * x
def recordBase (x : Nat) : Nat := bankBase x + 0x01000000

/-- Slots of a record area (Table 14-1). -/
def recordSlots : Nat := 4096

/-- A commit record: SEQ; of each kind whether it is journaled, its bank, length and CRC (Table 14-11). -/
structure CommitRec where
  seq : Nat
  valid : BitVec 4
  banks : BitVec 4
  lens : List Nat
  crcs : List Nat
  deriving DecidableEq, Repr

/-- MAGIC of a commit record (R427). -/
def recordMagic : Nat := 0x4E524A59

/-- The 64 bytes of a commit record (Table 14-11). -/
def CommitRec.bytes (r : CommitRec) : List Byte :=
  let kind (k : Nat) : List Byte :=
    [BitVec.ofNat 8 ((if r.valid.getLsbD k then 128 else 0) + (if r.banks.getLsbD k then 1 else 0)), 0, 0, 0] ++
    leBytes 4 (r.lens.getD k 0) ++ leBytes 4 (r.crcs.getD k 0)
  let body := leBytes 4 recordMagic ++ leBytes 4 r.seq ++ (List.range 4).flatMap kind ++ [0, 0, 0, 0]
  body ++ leBytes 4 (crc32 body).toNat

/-- The record of 64 bytes, if it is valid (R427). -/
def recordOf (bs : List Byte) : Option CommitRec :=
  if leAt bs 0 4 = recordMagic && leAt bs 0x3C 4 = (crc32 (bs.take 0x3C)).toNat then
    let st (k : Nat) : Nat := leAt bs (8 + 12 * k) 1
    some { seq := leAt bs 4 4
           valid := BitVec.ofNat 4 (packNat 1 ((List.range 4).map (fun k => st k / 128)))
           banks := BitVec.ofNat 4 (packNat 1 ((List.range 4).map (fun k => st k % 2)))
           lens := (List.range 4).map (fun k => leAt bs (12 + 12 * k) 4)
           crcs := (List.range 4).map (fun k => leAt bs (16 + 12 * k) 4) }
  else none

/-! Commits (R428, R429). -/

/-- The block with its image loader's state changed. -/
def Block.modImg (b : Block) (f : Img → Img) : Block := { b with img := f b.img }

/-- The bytes of a log or of calibration results under the free mask of their kind: the spec lays out none of them (R390, R397,
R426). Masking twice gives the bytes again. DESIGN CHOICE, log 14. -/
def masked (k : Nat) (bs : List Byte) : List Byte :=
  ((List.range bs.length).zip bs).map (fun e => e.2 ^^^ Config.journalMask k e.1)

/-- An entry of the wear log in 8 bytes, a remap in 4. DESIGN CHOICE, log 14. -/
def wearEntry (r : WearRec) : List Byte :=
  if r.kind = 4 then leBytes 1 4 ++ leBytes 3 r.elem
  else leBytes 1 r.kind ++ leBytes 3 r.elem ++ leBytes 2 (r.serves.getD 0xFFFF) ++ leBytes 2 r.val

/-- The entries of a wear log that fit `room` bytes, oldest first (Table 14-10). -/
def wearBytes : Nat → List WearRec → List Byte
  | _, [] => []
  | room, r :: rest =>
    let d := wearEntry r
    if d.length ≤ room then d ++ wearBytes (room - d.length) rest else []

/-- The wear log that bytes hold. -/
def wearOf : Nat → List Byte → List WearRec
  | 0, _ => []
  | fuel + 1, bs =>
    if bs.isEmpty then []
    else
      let elem := leAt bs 1 3
      if leAt bs 0 1 = 4 then { kind := 4, elem := elem, serves := some elem } :: wearOf fuel (bs.drop 4)
      else
        let s := leAt bs 4 2
        { kind := leAt bs 0 1, elem := elem, serves := if s = 0xFFFF then none else some s, val := leAt bs 6 2 } :: wearOf fuel (bs.drop 8)

/-- The bytes of the fault log, 12 for each of its 64 records at most, newest first; and the log that bytes hold. DESIGN CHOICE,
log 14. -/
def faultBytes (log : List FltRec) : List Byte :=
  (log.take 64).flatMap (fun r => leBytes 2 r.src ++ leBytes 2 r.index ++ leBytes 4 r.timeUs ++ leBytes 4 r.tickLo)
def faultOf (bs : List Byte) : List FltRec :=
  (chunks 12 bs).map (fun d => { src := leAt d 0 2, index := leAt d 2 2, timeUs := leAt d 4 4, tickLo := leAt d 8 4 })

/-- The content of a kind at the start of a commit, within the length of its area (Table 14-10). A re-characterised table goes with
an empty wear log (R432). -/
def Block.kindBytes (b : Block) (k : Nat) : List Byte :=
  if k = 0 then masked 0 (wearBytes 0x10000 (if b.img.rcDue then [] else b.img.wear))
  else if k = 1 then masked 1 (faultBytes b.flt.log)
  else if k = 2 then masked 2 ((List.range 288).flatMap (fun c => leBytes 4 (b.reg (ADC_COEF_GAIN.base + 4 * c)).toNat))
  else (List.range 131072).flatMap (fun e => leBytes 2 (b.img.rc.get (fun _ => 0) e))

/-- The operations that put data at a flash address: its sectors erased, then its pages programmed (R408, R428). -/
def writeOps (addr : Nat) (data : List Byte) : List FlashOp :=
  (List.range ((data.length + 0xFFFF) / 0x10000)).map (fun i => FlashOp.erase (addr + 0x10000 * i)) ++
  ((chunks 256 data).zip (List.range data.length)).map (fun p => FlashOp.program (addr + 256 * p.2) p.1)

/-- The bank a kind's new data goes to: the one the newest record does not name, or A (R428 step 2). -/
def Img.target (i : Img) (k : Nat) : Nat :=
  if i.jvalid.getLsbD k then (if i.jbanks.getLsbD k then 0 else 1) else 0

/-- The commit of the kinds pending: its record and its flash operations in order (R428). DEDUCED, log 47. -/
def Block.makeCommit (b : Block) : Commit :=
  let i := b.img
  let ks := [3, 2, 0, 1].filter i.pend.getLsbD
  let data := (List.range 4).map (fun k => if i.pend.getLsbD k then b.kindBytes k else [])
  let bank (k : Nat) : Nat := if i.pend.getLsbD k then i.target k else if i.jbanks.getLsbD k then 1 else 0
  let r : CommitRec :=
    { seq := if i.recBank.isSome then b.fld IMG_JSEQ_SEQ + 1 else 1
      valid := i.jvalid ||| i.pend
      banks := BitVec.ofNat 4 (packNat 1 ((List.range 4).map bank))
      lens := (List.range 4).map (fun k => if i.pend.getLsbD k then (data.getD k []).length else i.lens.getD k 0)
      crcs := (List.range 4).map (fun k => if i.pend.getLsbD k then (crc32 (data.getD k [])).toNat else i.crcs.getD k 0) }
  let rb := match i.recBank with | some x => 1 - x | none => 0
  let free := if rb = 0 then i.slotA else i.slotB
  let slot := if free < recordSlots then free else 0
  let erases := if free < recordSlots then [] else (List.range 4).map (fun j => FlashOp.erase (recordBase rb + 0x10000 * j))
  let ops := ks.flatMap (fun k => writeOps (bankBase (i.target k) + (areaOf k).1) (data.getD k []))
  { ops := ops ++ erases ++ [FlashOp.program (recordBase rb + 64 * slot) r.bytes]
    kinds := i.pend, seq := r.seq, banks := r.banks, valid := r.valid, lens := r.lens, crcs := r.crcs
    recBank := rb, slot := slot }

/-- The conditions of R429 for a commit to start. -/
def Block.commitMayStart (b : Block) : Bool :=
  b.aonUp && !b.inReset && !b.restarting && b.img.pend != 0 && b.img.commit.isNone && !b.bit IMG_STATUS_LOADING &&
  b.img.stage != 2 && b.flashMayStart && !b.bit IMG_JRNL_STOPPED &&
  (match b.img.endedAt with | some a => decide (a + 1000000000 ≤ b.now) | none => true)

/-- JOURNAL_COMMIT_START: every pending kind is frozen, and the first flash operation starts (R428, R429). DEDUCED, log 47. -/
def execJournalCommitStart (t : Nat) (s : State) : Host.Outcome State Fault Refusal :=
  s.run (fun b =>
    let b := b.at t
    if !b.commitMayStart then b
    else (b.modImg (fun i => { i with commit := some { b.makeCommit with opAt := some b.now }, pend := 0 })).put IMG_JRNL_BUSY 1)

/-- The first erased slot of the record area of a bank. -/
def Img.setSlot (i : Img) (bank slot : Nat) : Img := if bank = 0 then { i with slotA := slot } else { i with slotB := slot }

/-- A commit is abandoned: FLASH_FAIL, the kinds stay pending, and after three in a row no more start (R429). A slot whose
program had started is no longer erased, and an area whose erase had is not erased until it is done again. DEDUCED, log 47. -/
def Block.abandonCommit (b : Block) : Block :=
  match b.img.commit with
  | none => b
  | some c =>
    let erasing := c.ops.any (fun o => match o with | .erase a => decide (recordBase c.recBank ≤ a) && decide (a < recordBase c.recBank + 0x40000) | _ => false)
    let b := b.modImg (fun i =>
      let i := if c.ops.length ≤ 1 then i.setSlot c.recBank (c.slot + 1) else if erasing then i.setSlot c.recBank recordSlots else i
      { i with commit := none, pend := i.pend ||| c.kinds, fails := i.fails + 1, endedAt := some b.now })
    let b := (b.put IMG_JRNL_BUSY 0).put IMG_JRNL_STOPPED (if b.img.fails ≥ 3 then 1 else 0)
    b.report srcFLASH_FAIL 0

/-- FLASH_OP_DONE: the operation's status and its read-back are good, and the next one starts while the window holds; or
the commit is abandoned (R408, R428, R429). -/
def Block.flashOpDone (b : Block) (ok : Bool) : Block :=
  match b.img.commit with
  | none => b
  | some c =>
    if c.opAt.isNone then b
    else if !ok then b.abandonCommit
    else
      let ops := c.ops.drop 1
      b.modImg (fun i => { i with commit := some { c with ops := ops, opAt := if ops.isEmpty || !b.flashMayStart then none else some b.now } })

/-- FLASH_OP_DONE (R428). -/
def execFlashOpDone (t : Nat) (ok : Bool) (s : State) : Host.Outcome State Fault Refusal :=
  s.run (fun b => (b.at t).flashOpDone ok)

/-- The time an operation may take, ns (R429). -/
def opLimit : FlashOp → Nat
  | .erase _ => 200000000
  | .program _ _ => 5000000

/-- FLASH_OP_TIMEOUT: an erase not finished within 200 ms, or a page not programmed within 5 ms (R429). -/
def execFlashOpTimeout (t : Nat) (s : State) : Host.Outcome State Fault Refusal :=
  s.run (fun b =>
    let b := b.at t
    match b.img.commit with
    | some { ops := o :: _, opAt := some a, .. } => if a + opLimit o ≤ b.now then b.abandonCommit else b
    | _ => b)

/-- The commit is complete: its record is the newest, and the data of its kinds are those in force; a re-characterised table ends its
staging and empties the wear log (R428, R432, R442). DEDUCED, log 47. -/
def Block.finishCommit (b : Block) (c : Commit) : Block :=
  let table := c.kinds.getLsbD 3
  let b := b.modImg (fun i =>
    { i.setSlot c.recBank (c.slot + 1) with
      commit := none, fails := 0, endedAt := some b.now, recBank := some c.recBank
      jvalid := c.valid, jbanks := c.banks, lens := c.lens, crcs := c.crcs
      wear := if table then [] else i.wear
      rc := if table then [] else i.rc
      rcCount := if table then none else i.rcCount
      rcHold := i.rcHold && !table
      rcDue := i.rcDue && !table })
  let ks := c.kinds.toNat
  let b := ((b.put IMG_JRNL_BUSY 0).put IMG_JSEQ_SEQ c.seq).put IMG_JRNL_VALID (b.fld IMG_JRNL_VALID ||| ks)
  let b := b.put IMG_JRNL_BANKS ((b.fld IMG_JRNL_BANKS &&& (15 - ks)) ||| (c.banks.toNat &&& ks))
  if c.kinds.getLsbD 2 && !b.img.pend.getLsbD 2 then b.modAdc (fun a => { a with journalDue := false, journalWait := false }) else b

/-- JOURNAL_COMMIT_COMPLETE: with every operation done the record is read back (R428 step 4). -/
def execJournalCommitComplete (t : Nat) (ok : Bool) (s : State) : Host.Outcome State Fault Refusal :=
  s.run (fun b =>
    let b := b.at t
    match b.img.commit with
    | some c => if !c.ops.isEmpty then b else if ok then b.finishCommit c else b.abandonCommit
    | none => b)

/-! Field re-characterisation (R432). -/

/-- Staging and the commit request are accepted. DEDUCED, log 48. -/
def Block.rcOpen (b : Block) : Bool :=
  b.everyDark && (b.fld ENG_STATUS_STATE = eStopped || b.fld ENG_STATUS_STATE = eHalted)

/-- A write of IMG_RCADDR: with ENTRY 0 the count of staged writes begins; or it is refused (R432). DEDUCED, log 48. -/
def Block.rcAddr (b : Block) (data : Word) : Block :=
  if !b.rcOpen then b.put IMG_JRNL_RC_REFUSED 1
  else
  let b := b.put IMG_RCADDR_ENTRY (Fld.get IMG_RCADDR_ENTRY data)
  if Fld.get IMG_RCADDR_ENTRY data = 0 then b.modImg (fun i => { i with rcCount := some 0 }) else b

/-- Trace memory becomes the staging memory: recording and exporting stop (R432, Table 14-10). DEDUCED, log 48. -/
def Block.holdTrace (b : Block) : Block :=
  if b.img.rcHold then b
  else
    let b := (b.modImg (fun i => { i with rcHold := true })).modTrc (fun t => { t.stop with mem := [], base := 0 })
    ((b.put TRC_STATUS_RECORDING 0).put TRC_STATUS_ARMED 0).syncTrace

/-- A write of IMG_RCDATA: the entry at ENTRY is staged, and ENTRY advances; or it is refused (R432). DEDUCED, log 48. -/
def Block.rcData (b : Block) (data : Word) : Block :=
  if !b.rcOpen then b.put IMG_JRNL_RC_REFUSED 1
  else
    let b := b.holdTrace
    let e := b.fld IMG_RCADDR_ENTRY
    let b := b.modImg (fun i => { i with rc := i.rc.set (fun _ => 0) e (data.toNat % 65536), rcCount := i.rcCount.map (· + 1) })
    b.put IMG_RCADDR_ENTRY (e + 1)

/-- RC_DATA_WRITE (R432). -/
def execRcDataWrite (data : Word) (s : State) : Host.Outcome State Fault Refusal :=
  s.run (fun b => b.hostWrite IMG_RCDATA_ENTRY_DATA.base data Block.rcData)

/-- The staging is complete and every entry's MINV lies within 0..1,300 (R178, R432). -/
def Img.staged? (i : Img) : Bool :=
  (match i.rcCount with | some n => decide (131072 ≤ n) | none => false) && i.rc.all (fun e => e.2 / 32 ≤ 1300)

/-- The request of the re-characterisation commit: the table and an empty wear log are pending together, or it is refused
(R432). DEDUCED, log 48. -/
def Block.rcCommit (b : Block) : Block :=
  if b.rcOpen && b.img.staged? then b.modImg (fun i => { i with rcDue := true, pend := i.pend ||| 9 })
  else b.put IMG_JRNL_RC_REFUSED 1

/-- HOLD_DARK set in minimum safe mode: every region through Dusk; cleared: they start again (R420). -/
def Block.holdDark (b : Block) (on : Bool) : Block :=
  let was := b.bit IMG_CTL_HOLD_DARK
  let b := b.put IMG_CTL_HOLD_DARK (if on then 1 else 0)
  if !b.bit IMG_STATUS_SAFE || on = was then b
  else if on then (b.each regions Block.goDown).stopCheck
  else
    let b := b.each regions (fun b n =>
      if b.st n = sDusk || (b.R n).resetDusk then b.modR n (fun r => { r with keptWake := true }) else b)
    b.startLoose

/-- A write of IMG_CTL (R420, R432, R439). -/
def Block.imgCtl (b : Block) (data : Word) : Block :=
  let b := b.holdDark (data.getLsbD 0)
  if data.getLsbD 31 then b.rcCommit else b

/-- RC_COMMIT (R432). -/
def execRcCommit (data : Word) (s : State) : Host.Outcome State Fault Refusal :=
  s.run (fun b => b.hostWrite IMG_CTL_HOLD_DARK.base data Block.imgCtl)

/-- HOLD_DARK_WRITE (R420). -/
def execHoldDarkWrite (t : Nat) (data : Word) (s : State) : Host.Outcome State Fault Refusal :=
  s.run (fun b => (b.at t).hostWrite IMG_CTL_HOLD_DARK.base data Block.imgCtl)

/-! The scan of a load (R427, R431). -/

/-- A run of flash laid over a window of bytes that starts at address `a`. -/
def overlay (a : Nat) (s : FlashSeg) (bs : List Byte) : List Byte :=
  let lo := s.base - a
  let part := (s.bytes.drop (a - s.base)).take (bs.length - lo)
  if lo ≥ bs.length then bs else bs.take lo ++ part ++ bs.drop (lo + part.length)

/-- The `n` bytes of the flash at address `a`: the first run that holds an address gives it; erased bytes read 0xFF. -/
def readFlash (f : Flash) (a n : Nat) : List Byte := f.segs.foldr (overlay a) (List.replicate n 0xFF)

/-- The valid records of a bank, and its first erased slot. -/
def flashRecords (f : Flash) (x : Nat) : List (Nat × CommitRec) × Nat :=
  let slots := chunks 64 (readFlash f (recordBase x) (64 * recordSlots))
  (slots.filterMap (fun bs => (recordOf bs).map (fun r => (x, r))), (slots.findIdx (fun bs => bs.all (· = 0xFF))))

/-- The data of kind `k` that a record describes, if it marks the kind as journaled and the data passes its CRC. -/
def kindData (f : Flash) (k : Nat) (r : CommitRec) : Option (List Byte) :=
  let n := r.lens.getD k 0
  if !r.valid.getLsbD k || n > (areaOf k).2 then none
  else
    let d := readFlash f (bankBase (if r.banks.getLsbD k then 1 else 0) + (areaOf k).1) n
    if (crc32 d).toNat = r.crcs.getD k 0 then some d else none

/-- What the scan finds of a kind: its data and its bank, and whether an older record gave it. -/
structure Found where
  data : Option (List Byte) := none
  bank : Bool := false
  older : Bool := false
  deriving DecidableEq, Repr

/-- A kind's journaled data: of the newest record, else of the newest older one whose entry checks (R431). -/
def findKind (f : Flash) (k : Nat) : List (Nat × CommitRec) → Found
  | [] => {}
  | (_, r) :: rest =>
    if !r.valid.getLsbD k then {}
    else match kindData f k r with
      | some d => { data := some d, bank := r.banks.getLsbD k }
      | none =>
        match rest.findSome? (fun e => (kindData f k e.2).map (fun d => (d, e.2.banks.getLsbD k))) with
        | some (d, x) => { data := some d, bank := x, older := true }
        | none => {}

/-- Records sorted with the highest SEQ first. -/
def insertRec (r : Nat × CommitRec) : List (Nat × CommitRec) → List (Nat × CommitRec)
  | [] => [r]
  | e :: rest => if e.2.seq < r.2.seq then r :: e :: rest else e :: insertRec r rest

/-- The words of the engine's table memory from the bytes of an operating table, canonical (Table 14-5). -/
def tableWords (d : List Byte) : SMap MWord :=
  ((List.range 16384).zip ((chunks 16 d).map (fun w => BitVec.ofNat 128 (leNat w)))).filter (fun e => e.2 != 0)

/-- The journaled state is found and taken: after an always-on power-up the two logs, in every load the calibration
results and the table; older data in use sets FALLBACK (R430, R431). Whether code 0x44 is to be posted is told.
DEDUCED, log 47. -/
def Block.scanJournal (b : Block) (f : Flash) : Block × Bool :=
  let ra := flashRecords f 0
  let rb := flashRecords f 1
  let recs := (ra.1 ++ rb.1).foldr insertRec []
  let found := (List.range 4).map (fun k => findKind f k recs)
  let at' (k : Nat) : Found := found.getD k {}
  let newest := recs.head?
  let b := b.modImg (fun i => { i with
    slotA := ra.2, slotB := rb.2
    recBank := newest.map (·.1)
    jvalid := match newest with | some r => r.2.valid | none => 0
    jbanks := match newest with | some r => r.2.banks | none => 0
    lens := match newest with | some r => r.2.lens | none => [0, 0, 0, 0]
    crcs := match newest with | some r => r.2.crcs | none => [0, 0, 0, 0]
    staged := { i.staged with calJ := (at' 2).data.map (fun d => (leWords 4 (masked 2 d)).map (BitVec.ofNat 32)), tableJ := (at' 3).data.isSome } })
  let b := b.put IMG_JSEQ_SEQ (match newest with | some r => r.2.seq | none => 0)
  let b := b.put IMG_JRNL_VALID (packNat 1 (found.map (fun x => if x.data.isSome then 1 else 0)))
  let b := b.put IMG_JRNL_BANKS (packNat 1 (found.map (fun x => if x.data.isSome && x.bank then 1 else 0)))
  let b := match (at' 3).data with
    | some d => b.modEng (fun e => { e with tm := tableWords d })
    | none => b
  let b := if !b.img.cold then b
    else
      let wear := match (at' 0).data with | some d => wearOf d.length (masked 0 d) | none => []
      let log := match (at' 1).data with | some d => faultOf (masked 1 d) | none => []
      let b := b.modImg (fun i => { i with cold := false, wear := wear ++ i.wear.filter (fun r => r.kind != 4 || !wear.contains r) })
      { b with flt := { b.flt with log := (b.flt.log ++ log).take 64 } }
  let older := found.any (·.older)
  ((if older then b.put IMG_JRNL_FALLBACK 1 else b), older)

end Sys2Proof.Machine
end

