-- ==== Sys2Proof/Machine/Pmbus.lean ====
section
/-! DEFINITION. The PMBus host (R433 to R435): the start list, polls, alerts, retries, and the transfers of the host
software. -/

namespace Sys2Proof.Machine

/-- Commands the host may read and write (Table 14-13). -/
def pmbReads : List Nat := [0x00, 0x01, 0x02, 0x10, 0x20, 0x21, 0x40, 0x46, 0x79, 0x8B, 0x8C, 0x8D, 0x98]
def pmbWrites : List Nat := [0x00, 0x01, 0x02, 0x10, 0x21, 0x40, 0x46]

/-- The command and direction are allowed by Table 14-13: a send byte carries no data, a write one or two bytes. -/
def pmbAllowed (ctl : Word) : Bool :=
  let cmd := Fld.get PMB_CTL_CMD ctl
  let size := Fld.get PMB_CTL_SIZE ctl
  if size = 3 then false
  else if Fld.get PMB_CTL_READ ctl = 1 then pmbReads.contains cmd
  else if size = 0 then cmd = 0x03 else pmbWrites.contains cmd

/-- The index of the device with an address, in the PMBus table. -/
def Block.pmbIndex (b : Block) (addr : Nat) : Option Nat :=
  (List.range b.img.devs.length).find? (fun i => b.img.devs.getD i 0 = addr)

/-- A linear value, mantissa × 2^N with N from VOUT_MODE bits [4:0], lies within 1.62–1.98 V (R435). -/
def linearOk (mode data : Nat) : Bool :=
  let n := signed 5 (mode % 32)
  if n ≥ 0 then 162 ≤ 100 * data * 2 ^ n.toNat && 100 * data * 2 ^ n.toNat ≤ 198
  else 162 * 2 ^ (-n).toNat ≤ 100 * data && 100 * data ≤ 198 * 2 ^ (-n).toNat

/-- A write of VOUT_COMMAND is allowed: a supported device, and a value within the limits (R435). -/
def Block.voutOk (b : Block) (addr data : Nat) : Bool :=
  match b.pmbIndex addr with
  | none => Config.voutUnknown addr data
  | some i =>
    if b.bit PMB_DEV_UNSUPPORTED i then false
    else match b.img.vmode.get (fun _ => none) i with
      | some m => linearOk m data
      | none => Config.voutUnknown addr data

/-- A host transfer is refused (R435). DEDUCED, log 49. -/
def Block.pmbRefused (b : Block) (ctl : Word) : Bool :=
  let cmd := Fld.get PMB_CTL_CMD ctl
  let write := Fld.get PMB_CTL_READ ctl = 0
  b.bit PMB_STATUS_BUSY || !pmbAllowed ctl || (write && (cmd = 0x01 || cmd = 0x02) && !b.everyDark) ||
  (write && cmd = 0x21 && !b.voutOk (Fld.get PMB_CTL_ADDR ctl) (b.fld PMB_DATA_DATA))

/-- A write of PMB_CTL: its fields are stored, and START queues one transfer or is refused (R435). DEDUCED, log 49. -/
def Block.pmbCtl (b : Block) (data : Word) : Block :=
  let b := b.storeWritable PMB_CTL_CMD.base data
  if !data.getLsbD 31 then b
  else if b.pmbRefused data then b.put PMB_STATUS_REFUSED 1
  else (b.put PMB_STATUS_BUSY 1).modImg (fun i => { i with xfer := some (data, b.fld PMB_DATA_DATA), tries := i.tries.set (fun _ => 0) 8 0 })

/-- PMB_HOST_TRANSFER (R435). -/
def execPmbHostTransfer (data : Word) (s : State) : Host.Outcome State Fault Refusal :=
  s.run (fun b => b.hostWrite PMB_CTL_CMD.base data Block.pmbCtl)

/-- Retries of a transfer. -/
def Block.triesOf (b : Block) (i : Nat) : Nat := b.img.tries.get (fun _ => 0) i
def Block.setTries (b : Block) (i k : Nat) : Block := b.modImg (fun x => { x with tries := x.tries.set (fun _ => 0) i k })

/-- The host's transfer succeeds: read data reaches PMB_DATA, and BUSY clears (R435, R444). -/
def Block.pmbDone (b : Block) (data : Nat) : Block :=
  match b.img.xfer with
  | none => b
  | some (ctl, _) =>
    let size := Fld.get PMB_CTL_SIZE ctl
    let b := if Fld.get PMB_CTL_READ ctl = 1 && size > 0 then b.put PMB_DATA_DATA (data % 256 ^ size) else b
    ((b.setTries 8 0).put PMB_STATUS_BUSY 0).modImg (fun i => { i with xfer := none })

/-- The host's transfer fails: retried twice, and then PMB_ERR (R434). -/
def Block.pmbFailed (b : Block) : Block :=
  if b.img.xfer.isNone then b
  else if b.triesOf 8 < 2 then b.setTries 8 (b.triesOf 8 + 1)
  else (((b.setTries 8 0).put PMB_STATUS_BUSY 0).modImg (fun i => { i with xfer := none })).report srcPMB_ERR 0

/-- PMB_TRANSFER_DONE (R435). -/
def execPmbTransferDone (t : Nat) (ok : Bool) (data : Nat) (s : State) : Host.Outcome State Fault Refusal :=
  s.run (fun b =>
    let b := b.at t
    if b.triesOf 8 > 0 then b else if ok then b.pmbDone data else b.pmbFailed)

/-- Yalga's own traffic runs: an image is in force, and no load (R419, R433). -/
def Block.pmbRuns (b : Block) : Bool :=
  b.img.accepted && !b.bit IMG_STATUS_SAFE && b.serviceUp && !b.bit IMG_STATUS_LOADING && !b.restarting

/-- A device is supported: linear VOUT_MODE, Part II revision 1.3 or above (R433). -/
def pmbSupported (a : PmbAnswer) : Bool := a.voutMode / 32 % 8 = 0 && a.revision % 16 ≥ 3

/-- The answers of one device to the reads before the start list; one that does not answer has failed its retries (R433, R434).
DEDUCED, log 49. -/
def Block.pmbAnswer (b : Block) (answers : List PmbAnswer) (i : Nat) : Block :=
  match answers.find? (fun a => a.dev = i && a.acks) with
  | none => (b.put PMB_DEV_FAILED 1 i).report srcPMB_ERR 0
  | some a =>
    let b := b.modImg (fun x => { x with vmode := x.vmode.set (fun _ => none) i (some (a.voutMode % 256)) })
    if pmbSupported a then b else (b.put PMB_DEV_UNSUPPORTED 1 i).report srcPMB_ERR 0

/-- A transfer of `k` attempts that failed is given up: the first and both its retries (R434). -/
def gaveUp (k : Nat) : Bool := k ≥ 3

/-- PMB_START_LIST: the devices are asked, and the writes of those that answer and are supported are sent in order; `fails` are the
failed attempts at each write of the list, whose retries the list waits for. One that is given up raises PMB_ERR (R433, R434).
DEDUCED, log 49. -/
def Block.startList (b : Block) (answers : List PmbAnswer) (fails : List Nat) : Block :=
  if !b.pmbRuns || !b.img.startDue then b
  else
    let b := b.each (List.range b.img.devs.length) (fun b i => b.pmbAnswer answers i)
    let due := ((List.range b.img.start.length).zip b.img.start).filter (fun e =>
      !b.bit PMB_DEV_FAILED e.2.dev && !b.bit PMB_DEV_UNSUPPORTED e.2.dev)
    let lost (e : Nat × PmbWrite) : Bool := gaveUp (fails.getD e.1 0)
    let b := b.modImg (fun i => { i with startDue := false, sent := (due.filter (fun e => !lost e)).map (·.2) })
    b.when (due.any lost) (fun b => b.report srcPMB_ERR 0)

/-- PMB_START_LIST (R433). -/
def execPmbStartList (t : Nat) (answers : List PmbAnswer) (fails : List Nat) (s : State) : Host.Outcome State Fault Refusal :=
  s.run (fun b => (b.at t).startList answers fails)

/-- A device's poll succeeds: its words are reported (R434, R445). -/
def Block.pollGood (b : Block) (i : Nat) (a : PmbPollAnswer) : Block :=
  let b := ((b.put PMB_DEV_STATUS a.status i).put PMB_READ_VOUT a.vout i).put PMB_READ_IOUT a.iout i
  ((b.put PMB_DEV_FAILED 0 i).setTries i 0).modImg (fun x =>
    { x with pollFails := x.pollFails.set (fun _ => 0) i 0, failedAt := x.failedAt.set (fun _ => none) i none })

/-- A device's transfer fails: retried twice, then PMB_ERR; after three failed polls in a row it is marked FAILED
(R434). -/
def Block.pollBad (b : Block) (i : Nat) : Block :=
  if b.triesOf i < 2 then b.setTries i (b.triesOf i + 1)
  else
    let b := ((b.setTries i 0).modImg (fun x => { x with pollFails := x.pollFails.set (fun _ => 0) i (min 3 (x.pollFails.get (fun _ => 0) i + 1)) })).report srcPMB_ERR 0
    if b.img.pollFails.get (fun _ => 0) i < 3 then b
    else (b.put PMB_DEV_FAILED 1 i).modImg (fun x => { x with failedAt := x.failedAt.set (fun _ => none) i (some b.now) })

/-- A device is polled: not marked FAILED, or marked by its polls for 1 s (R434). DEDUCED, log 49. -/
def Block.polled (b : Block) (i : Nat) : Bool :=
  !b.bit PMB_DEV_FAILED i ||
  (match b.img.failedAt.get (fun _ => none) i with | some a => decide (a + 1000000000 ≤ b.now) | none => false)

/-- PMB_POLL: every device that is polled (R434). A device whose transfer is being retried is left to its retry. -/
def Block.poll (b : Block) (answers : List PmbPollAnswer) : Block :=
  if !b.pmbRuns || b.img.startDue then b
  else
    b.each (List.range b.img.devs.length) (fun b i =>
      if !b.polled i || b.triesOf i > 0 then b
      else match answers.find? (fun a => a.dev = i && a.acks) with
        | some a => b.pollGood i a
        | none => b.pollBad i)

/-- PMB_POLL (R434). -/
def execPmbPoll (t : Nat) (answers : List PmbPollAnswer) (s : State) : Host.Outcome State Fault Refusal :=
  s.run (fun b => (b.at t).poll answers)

/-- PMB_ALERT: the device that answers the Alert Response Address after `fails` failed attempts, and its STATUS_WORD after
`statusFails`; a read that is given up raises PMB_ERR (R434). DEDUCED, log 49. -/
def Block.alert (b : Block) (addr status fails statusFails : Nat) : Block :=
  if !b.pmbRuns then b
  else if gaveUp fails then b.report srcPMB_ERR 0
  else
    let b := b.put PMB_STATUS_ALERT_ADDR addr
    let b := if gaveUp statusFails then b.report srcPMB_ERR 0
      else match b.pmbIndex (addr % 128) with
        | some i => b.put PMB_DEV_STATUS status i
        | none => b
    b.report srcPMB_ALERT 0

/-- PMB_ALERT (R434). -/
def execPmbAlert (t addr status fails statusFails : Nat) (s : State) : Host.Outcome State Fault Refusal :=
  s.run (fun b => (b.at t).alert addr status fails statusFails)

/-- PMB_RETRY: a failed transfer is made again 1 ms later: of device `i`, or the host's at index 8 (R434). DEDUCED, log 49. -/
def Block.pmbRetry (b : Block) (i : Nat) (a : PmbPollAnswer) : Block :=
  if b.triesOf i = 0 then b
  else if i = 8 then (if a.acks then b.pmbDone a.status else b.pmbFailed)
  else if i < b.img.devs.length && b.pmbRuns then (if a.acks then b.pollGood i a else b.pollBad i)
  else b

/-- PMB_RETRY (R434). -/
def execPmbRetry (t i : Nat) (a : PmbPollAnswer) (s : State) : Host.Outcome State Fault Refusal :=
  s.run (fun b => (b.at t).pmbRetry i a)

end Sys2Proof.Machine
end

