-- ==== Sys2Proof/Machine/Resets.lean ====
section
/-! DEFINITION. Resets and start-up to the load of the image: VIN, the always-on power-up, the chip reset with its Dusk,
and the built-in memory test (chapters 2, 5, 13, 14). -/

namespace Sys2Proof.Machine

/-- VIN_GOOD: the always-on domain starts powering up, with FAULT_N low (R60, R424). -/
def execVinGood (t : Nat) (s : State) : Host.Outcome State Fault Refusal :=
  s.run (fun b => { b.setNow t with vinGood := true })

/-- VIN_BAD: every phase in SAFE and every header open, HOOP_BYP_N and FAULT_N low, and every domain reset until VIN is
good again; what was not committed is lost (R424). DEDUCED, log 55. -/
def execVinBad (t : Nat) (s : State) : Host.Outcome State Fault Refusal :=
  s.run (fun b =>
    let b := b.at t
    { now := b.now, freeCtr := b.freeCtr, slo := b.slo
      hoop := { fellAt := if b.hoop.bypOpen then some b.now else b.hoop.fellAt, errAt0 := b.now, errAt1 := b.now } })

/-- ALWAYS_ON_READY: FAULT_N is released, and the start goes on once FIO is ready (R60, Table 14-7). -/
def Block.alwaysOnReady (b : Block) : Block :=
  if !b.vinGood || b.aonUp then b
  else
    let b := { b with aonUp := true, aonAt := b.now, flt := { b.flt with powerUp := false } }
    if b.clkReady kFIO then b.startLoad 10000 false false else { b with img := { b.img with waitFio := true } }

/-- ALWAYS_ON_READY (R60). -/
def execAlwaysOnReady (t : Nat) (s : State) : Host.Outcome State Fault Refusal :=
  s.run (fun b => (b.setNow t).alwaysOnReady)

/-- The load or the wait of R417 is abandoned (Table 14-9). -/
def Block.abandonLoad (b : Block) : Block :=
  { b.put IMG_STATUS_LOADING 0 with img := { b.img with stage := 0, accepted := false, trustDue := false } }

/-- The start of the sequence of R158: the engine stops, the outputs fall to 0, and what was in progress ends as Table
14-9 gives. Regions without a closed segment park at once. A pulse taken during the sequence is a reset of its own, from which the
slots still to come are measured (R48). DEDUCED, log 55. -/
def Block.chipReset (b : Block) : Block :=
  if !b.aonUp then b
  else
    let b := (if b.flt.step = 1 then b.rebuild else b).redirectCopied
    let b := { b with
      inReset := true
      resetAt := b.now
      quiesceReq := false
      eng := { b.eng.stop with outCom := [], outBuf := [], sendQ := [] }
      trc := { spoiled := b.trc.spoiled }
      thm := { b.thm with stopStep := 0 }
      flt := { b.flt with step := 0, chipReq := false, latched := [] }
      clk := { b.clk with sleeping := false } }
    let b := ((b.put ENG_STATUS_STATE eStopped).put ENG_MADDR_BUSY 0).stopOperations.abandonLoad.enterMode
    let b := b.each regions Block.zeroOut
    let b := b.each regions (fun b n =>
      if b.st n = sSoftstart || b.st n = sPrimed || b.st n = sDark then b.toDark n
      else b.modR n (fun r => { r with toPrimed := false, capDark := false, keptWake := false, exitAt := none }))
    b.bypassCheck

/-- CHIP_RESET: a low pulse of CRST_N is taken (R48, R158). -/
def execChipReset (t : Nat) (s : State) : Host.Outcome State Fault Refusal :=
  s.run (fun b => (b.at t).chipReset)

/-- A region's reset Dusk: its closed segments open in reverse stage order (R158). -/
def Block.resetDusk (b : Block) (n : Nat) : Block :=
  let st := b.st n
  if st = sDark || st = sFaulted || (b.R n).resetDusk then b
  else if (topSegment (b.R n).hdrEn).isNone then b.toDark n
  else if st = sDawn || st = sDusk then b.unwind n
  else (b.startDusk n).modR n (fun r => { r with resetDusk := true })

/-- RESET_DUSK_START: at (15 − w) × 2.5 µs weave w starts its reset Dusk (R158). -/
def execResetDuskStart (t w : Nat) (s : State) : Host.Outcome State Fault Refusal :=
  s.run (fun b =>
    let b := b.at t
    if w < 16 && b.inReset && b.resetAt + (15 - w) * 2500 ≤ b.now then b.each (regionsOf w) Block.resetDusk else b)

/-- The registers after a chip reset: the Reset column, with the RWS fields kept (R7). -/
def stickyRegs (m : SMap Word) : SMap Word :=
  m.filterMap (fun e =>
    match findReg e.1 with
    | none => none
    | some d =>
      let w := (resetWord e.1 &&& ~~~d.rws) ||| (e.2 &&& d.rws)
      if w = resetWord e.1 then none else some (e.1, w))

/-- What a chip reset leaves in registers whose Reset column it gives: SLO_RDY tells whether SLO runs, on which the start waits
(Table 13-1); a frame missed during the reset shows (R282). -/
def Block.keepFlags (b b' : Block) : Block :=
  let b' := b'.put CLK_STATUS_SLO_RDY (b.fld CLK_STATUS_SLO_RDY)
  if b.red.gapDue then b'.put PWR_STATUS_GAP 1 else b'

/-- The weave, engine, service and ring domains are reset: registers, hidden state, instances (R158, R515). The logs, the
wear log and the journal's bookkeeping, the fractions of the energy counters, the levels of pins and a chip-reset request made since
the reset was taken (R47) stay. The clock sources run
on (R422), and their flags, at 0 as the Reset column gives (R7), are set again as each is found ready. EXTEST stays while the
test access port holds it (R61). DEDUCED, log 55. -/
def Block.domainReset (b : Block) : Block :=
  let c : Clk := { forcing := b.clk.forcing, failAt := b.clk.failAt, collapsed := b.clk.collapsed, assertAll := b.clk.assertAll,
                   chainAt := b.clk.chainAt, chainLoop := b.clk.chainLoop, lost := b.clk.lost, inBand := b.clk.inBand,
                   readyAt := b.clk.readyAt, holdAt := b.clk.holdAt, svcStopped := b.clk.svcStopped,
                   sscDraw := b.clk.sscDraw, plaitDraw := b.clk.plaitDraw }
  let i : Img := { wear := b.img.wear, pend := b.img.pend &&& 3, cold := b.img.cold, lens := b.img.lens, crcs := b.img.crcs, jvalid := b.img.jvalid, jbanks := b.img.jbanks,
                   recBank := b.img.recBank, slotA := b.img.slotA, slotB := b.img.slotB, endedAt := b.img.endedAt }
  let f : Flt := { log := b.flt.log, resets := b.flt.resets, powerUp := false, chipReq := b.flt.chipReq }
  let e : Eng := { pm := b.eng.pm, sm := b.eng.sm, cm := b.eng.cm, tm := b.eng.tm, wm := b.eng.wm }
  let b' : Block := { now := b.now, slo := b.slo, freeCtr := b.freeCtr, regs := stickyRegs b.regs, vinGood := b.vinGood,
                      aonUp := b.aonUp, aonAt := b.aonAt, tapInstr := b.tapInstr, tapOut := b.tapOut, extest := b.tapInstr = 2,
                      trstLow := b.trstLow, trustedPin := b.trustedPin, quiesceAck := b.quiesceAck,
                      flt := f, eng := e, img := i, clk := c, hoop := { fellAt := b.hoop.fellAt, errAt0 := b.now, errAt1 := b.now }, trc := { spoiled := b.trc.spoiled }, red := { frac := b.red.frac } }
  b.keepFlags b'

/-- CHIP_RESET_END: with every region DARK or DARK-FAULTED the domains are reset, and start-up runs from step 3 (R158,
R422). SLO_STOP ends only with SLO running (Table 13-1). DEDUCED, log 55. -/
def Block.chipResetEnd (b : Block) : Block :=
  if !b.inReset || !b.everyDark then b
  else
    let b := b.domainReset
    let b := if b.clkReady kSLO then b else b.classS srcSLO_STOP 0
    if b.clkReady kFIO then b.startLoad 10000 false false else { b with img := { b.img with waitFio := true } }

/-- CHIP_RESET_END (R158). -/
def execChipResetEnd (t : Nat) (s : State) : Host.Outcome State Fault Refusal :=
  s.run (fun b => (b.at t).chipResetEnd)

/-- A failing word of the built-in test, or of the spare row that holds it, is redirected to a spare row, or MEM_SPARE_OUT is raised
(R395, R396, R422). -/
def Block.testFailure (b : Block) (x : MemWord) : Block :=
  if !(x.word < memWords x.mem) then b
  else match b.takeRow x.mem with
    | some b => b.redirect x.mem x.word
    | none => b.raise srcMEM_SPARE_OUT x.mem

/-- Every word of the memories tested holds zero (R414, R422). -/
def Block.clearMemories (b : Block) (trace : Bool) : Block :=
  let b := b.modEng (fun e => { e with pm := [], sm := [], cm := [], tm := [], wm := [], smPend := [] })
  if trace then { b with trc := { b.trc with mem := [], base := 0 } } else b

/-- The built-in test ends: at start-up before the sections load, or as step 4 of a block warm reset, after which the
image is read again (R398, R422). DESIGN CHOICE, log 16. -/
def Block.memoryTested (b : Block) (failing : List MemWord) : Block :=
  if b.flt.step = 2 then
    let b := failing.foldl Block.testFailure (b.clearMemories true)
    ({ b with flt := { b.flt with step := 3 } } : Block).startLoad 0 true true
  else if b.img.stage = 1 && !b.img.memTested && b.flt.step = 0 then
    let b := (failing.filter (fun x => x.mem < 5)).foldl Block.testFailure (b.clearMemories false)
    { b with img := { b.img with memTested := true } }
  else b

/-- MEMORY_TEST_DONE (R422). -/
def execMemoryTestDone (failing : List MemWord) (s : State) : Host.Outcome State Fault Refusal :=
  s.run (fun b => b.memoryTested failing)

/-- FLASH_READY: the polled flash reports ready (R408). -/
def execFlashReady (t : Nat) (s : State) : Host.Outcome State Fault Refusal :=
  s.run (fun b =>
    let b := b.at t
    if b.img.stage = 1 && b.img.rose ≤ b.now then { b with img := { b.img with flashRdy := true } } else b)

end Sys2Proof.Machine
end

