-- ==== Sys2Proof/Machine/PortWrite.lean ====
section
/-! DEFINITION. The write of any register of the host window, with the effect its chapter gives it: the host's writes that
have no row of their own, and the register writes of the limits section (R4 to R6, R25, R414). -/

namespace Sys2Proof.Machine

/-- The word a register array's element was written to, where an address lies in one. -/
def inArray (base count a : Nat) : Bool := decide (base ≤ a) && decide (a < base + 4 * count) && a % 4 = 0

/-- A write of FLT_CFG[s]: PAR is computed anew; EN of class S reads 1, COLL_PARITY keeps its reaction, and words of reserved
sources ignore writes (R382, R400, R407). -/
def Block.fltCfgWrite (b : Block) (a : Nat) (data : Word) : Block :=
  let s := (a - FLT_CFG_EN.base) / 4
  if !isSource s then b
  else
    let en := if isClassS s then 0x100#32 else data &&& 0x100#32
    let react := if s = srcCOLL_PARITY then 4#32 else data &&& 7#32
    let w := en ||| react
    b.setReg a (if parity w then w ||| 0x80000000#32 else w)

/-- The gate enables that are forced to 1 (R346). -/
def forcedGates : Word := 0x0641

/-- The effect of a write of `data` at an aligned address. A register without a rule of its own stores its RW and RWS fields
and clears what is written 1 in its W1C fields; an address without a register takes nothing (R5, Table 0-6). -/
def Block.applyWord (b : Block) (a : Nat) (data : Word) : Block :=
  let store (b : Block) : Block := (b.storeWritable a data).writeFlags a data
  if inArray FLT_CFG_EN.base 128 a then b.fltCfgWrite a data
  else if inArray REG_GSLEEP_SLEEP.base 32 a then b.gsleepWrite ((a - REG_GSLEEP_SLEEP.base) / 4) data
  else if inArray WV_SWAP_REQ.base 16 a then b.swapRequest ((a - WV_SWAP_REQ.base) / 4) data
  else if a = IMG_CTL_HOLD_DARK.base then b.imgCtl data
  else if a = IMG_RCADDR_ENTRY.base then b.rcAddr data
  else if a = IMG_RCDATA_ENTRY_DATA.base then b.rcData data
  else if a = ENG_MADDR_MEM.base then b.memRead data
  else if a = ENG_MDATA_DATA.base + 12 then b.memWrite data
  else if a = TRC_CTL_MODE.base then b.trcCtl data
  else if a = TRC_EXP_BASE_LO_BASE_MID.base || a = TRC_EXP_BASE_HI_BASE_HI.base then
    (if b.bit TRC_CTL_EXPORT then b else store b)
  else if a = TRC_TICKSET_LO_TICK_LO.base then b.modTrc (fun t => { t with setLo := data.toNat })
  else if a = TRC_TICKSET_HI_TICK_HI.base then b.tickset data
  else if a = TRC_REPLAY_START.base then b.replayStart data
  else if a = TRC_FLAGS_SLICE_FLAGS.base then b.flagsWrite data
  else if a = PWR_CAP_SLOW_LIMIT.base then b.slowCapWrite data
  else if a = CLK_CTL_REF_AUTO.base then b.clkCtl data
  else if a = CLK_GATE_FIO.base then b.storeWritable a (data ||| forcedGates)
  else if a = CLK_XCFG_XB_10K.base then b.xcfgWrite data
  else if a = CLK_PSYNC_EN.base then b.psyncWrite data
  else if a = ADC_REF_EXT_MV.base then b.refWrite data
  else if a = ADC_CAL_CTL_POINT.base then b.calWrite data
  else if a = ADC_PHTRIG_EVENT.base then (store b).phtrigWritten
  else if a = FLT_CLEAR_SRC.base then b.fltClear data
  else if a = FLT_CTL_BRESET.base then (if data.getLsbD 0 then b.breset else b)
  else if a = HOOP_CTL_LEAVE.base then b.leaveWrite data
  else if a = PMB_CTL_CMD.base then b.pmbCtl data
  else store b

/-- An unaligned access: whether it acts, and on which bits, is unpredictable; a free mask decides both (R4, R391).
DESIGN CHOICE, log 7. -/
def Block.unalignedWrite (b : Block) (addr : Nat) (data : Word) : Block :=
  let a := addr / 4 * 4
  let x := b.restartEvent.draw
  if x.1 = 0 then x.2 else x.2.hostWrite a ((b.reg a &&& ~~~x.1) ||| (data &&& x.1)) (fun b d => b.applyWord a d)

/-- FLAG_W1C_CLEAR: the W1C bits written 1 clear, and the other fields of the word are written with them (R387, Table 0-6). -/
def execFlagW1cClear (t addr : Nat) (data : Word) (s : State) : Host.Outcome State Fault Refusal :=
  s.run (fun b => if addr % 4 = 0 then (b.at t).hostWrite addr data (fun b d => b.applyWord addr d) else b)

end Sys2Proof.Machine
end

