-- ==== Sys2Proof/Machine/ProgCheck.lean ====
section
/-! DEFINITION. The loader's reading of an engine program: the instruction words of Tables 6-3 to 6-5, the static cycle
count (R185) and the refusals of R193, as the codes of Table 14-6. -/

namespace Sys2Proof.Machine

/-- Bits `hi` down to `lo` of a word. -/
def bitsOf (w hi lo : Nat) : Nat := w / 2 ^ lo % 2 ^ (hi + 1 - lo)

/-- The operands of formats M, X and R (Table 6-3). -/
def mOf (w : Nat) : MOp := { bd := bitsOf w 25 21, sb := bitsOf w 20 17, rm := bitsOf w 16 13, ofs := bitsOf w 12 0 }
def xOf (w : Nat) : XOp :=
  { ba := bitsOf w 25 21, ac := bitsOf w 20 19, km1 := bitsOf w 18 14, mtm1 := bitsOf w 13 10, ngm1 := bitsOf w 9 8,
    sb := bitsOf w 7 4, sh := bitsOf w 3 2, am := bitsOf w 1 1 = 1 }
def rOf (w : Nat) : ROp :=
  { bd := bitsOf w 25 21, ba := bitsOf w 20 16, bb := bitsOf w 15 11, ty := bitsOf w 10 8, fn := bitsOf w 7 0 }

/-- The instruction of a word by its opcode (Table 6-4); none for a reserved opcode, or where a field that the opcode does
not use, or a reserved one, is not zero (R174). -/
def decodeWord (w : Nat) : Option Instr :=
  let op := bitsOf w 31 26
  let sd := bitsOf w 25 22
  let imm := bitsOf w 21 0
  let some' (c : Bool) (i : Instr) : Option Instr := if c then some i else none
  let x (f : XOp → Instr) : Option Instr := some' (bitsOf w 0 0 = 0) (f (xOf w))
  if op = 0x00 then some' (sd = 0 && imm = 0) .nop
  else if op = 0x01 then some' (sd = 0 && imm = 0) (.twait [])
  else if op = 0x02 then some' (sd = 0) (.loop (bitsOf w 21 12) (bitsOf w 11 0))
  else if op = 0x03 then some (.smov sd imm)
  else if op = 0x04 then some (.sadd sd imm)
  else if op = 0x05 then some' (imm = 0) (.cyc sd [])
  else if op = 0x06 then some' (imm < 2) (.tick sd imm)
  else if op = 0x07 then some' (imm < 2) (.aflg sd imm)
  else if op = 0x08 then some (.lds (mOf w) [])
  else if op = 0x09 then some (.sts (mOf w))
  else if op = 0x0A then some (.ldc (mOf w) [])
  else if op = 0x10 then x (.mvb · [] false)
  else if op = 0x11 then x (.mvr · [] false)
  else if op = 0x12 then x (.mvp · [] false)
  else if op = 0x13 then x (.mvw · [] false)
  else if op = 0x31 then some' (sd = 0 && imm < 256) (.wrflg imm)
  else
    let r := rOf w
    let ctors : List (Nat × Instr) :=
      [(0x14, .acrd r), (0x15, .acxw r), (0x16, .redx r), (0x17, .reda r [0, 1, 2, 3]), (0x18, .vadd r), (0x19, .vsub r),
       (0x1A, .vmul r), (0x1B, .vfma r), (0x1C, .vcvt r), (0x1D, .vxw r), (0x1E, .vsuml r), (0x1F, .prng r), (0x20, .vmin r),
       (0x21, .vmax r), (0x22, .vclmp r), (0x23, .vmini r), (0x24, .vcmp r), (0x25, .vsel r), (0x26, .vsell r),
       (0x28, .tlop r []), (0x29, .tluf r []), (0x2C, .rdsnp r), (0x2D, .rdhint r), (0x2E, .rdact r), (0x2F, .rdasy r),
       (0x30, .wrout r), (0x34, .rsend r none)]
    match ctors.find? (fun c => c.1 = op) with
    | some c => some' c.2.wf c.2
    | none => none

/-- The word holds no reserved code and no non-zero unused field: array instructions beyond R176, loops and scalars have
codes of their own (Table 14-6). -/
def fieldsLegal (i : Instr) : Bool :=
  match i with
  | .mvb o _ _ => o.sh < 3
  | .mvr o _ _ => o.sh = 0
  | .mvp o _ _ => o.sh = 0
  | .mvw o _ _ => o.sh = 0
  | _ => true

/-- An array instruction beyond R176. -/
def beyondArray (i : Instr) : Bool :=
  match i with
  | .mvb o _ _ => !o.mvbOk
  | .mvr o _ _ => !o.mvrOk
  | .mvp o _ _ => !o.mvpOk
  | .mvw o _ _ => !o.mvwOk
  | _ => false

/-- The V-marked instructions (Table 6-4). -/
def vMarked (i : Instr) : Bool :=
  match i with
  | .cyc _ _ => true
  | .reda _ _ => true
  | .rdasy _ => true
  | _ => false

/-- A program as the loader reads it: the instruction of each word, none where the word is refused. -/
abbrev Program := List (Option Instr)

/-- The word is TWAIT (Table 6-4). -/
def isTwait (i : Option Instr) : Bool := match i with | some (.twait _) => true | _ => false
def isLoop (i : Option Instr) : Bool := match i with | some (.loop _ _) => true | _ => false

/-- The instructions of program memory. -/
def memInstrs : Nat := 16384

/-- A LOOP refused with 0x10: CNT or LEN 0, a body past program memory, or one that holds LOOP or TWAIT (R185). `tail` is
the program after the LOOP, `at'` its index; what the section does not load is NOP. -/
def badLoop (at' cnt len : Nat) (tail : Program) : Bool :=
  cnt = 0 || len = 0 || at' + len ≥ memInstrs || (tail.take len).any (fun i => isLoop i || isTwait i)

/-- The LOOPs of a program that are refused, by their index. -/
def badLoops : Nat → Program → List Nat
  | _, [] => []
  | k, i :: r =>
    (match i with
     | some (.loop c l) => if badLoop k c l r then [k] else []
     | _ => []) ++ badLoops (k + 1) r

/-- A static run of a program: where it stands, its pipeline, the values of S0..S12, those last written by CYC, TICK or
AFLG, the codes found, whether it has met a refused LOOP, and the cycle at which TWAIT issues. -/
structure Sim where
  pc : Nat
  loopTop : Nat := 0
  loopEnd : Nat := 0
  loopLeft : Nat := 0
  pipe : Pipe := {}
  scal : SMap Nat := []
  taint : List Nat := []
  ticking : Bool := false
  codes : List Nat := []
  metBad : Bool := false
  count : Option Nat := none
  deriving DecidableEq, Repr

/-- The values a base may have: S13 is S8 or S9, S14 the quadrant, S15 the tick length (R173). -/
def Sim.bases (m : Sim) (det : Bool) (sb : Nat) : List Nat :=
  let s (k : Nat) := m.scal.get (fun _ => 0) k
  if sb = 13 then [s 8, s 9] else if sb = 14 then slices
  else if sb = 15 then (if det then [400, 800] else [250, 500]) else [s sb]

/-- A base last written by CYC, TICK or AFLG. -/
def Sim.tainted (m : Sim) (sb : Nat) : Bool := m.taint.contains sb || (sb = 13 && (m.taint.contains 8 || m.taint.contains 9))

/-- The last row or line an instruction addresses from its base, its base scalar, and the highest legal one (R171, R193);
none when it addresses nothing. -/
def reach (i : Instr) : Option (Nat × Nat × Nat) :=
  let rows (o : MOp) (top : Nat) : Option (Nat × Nat × Nat) :=
    ((List.range 4).filter (fun j => o.rm / 2 ^ j % 2 = 1)).getLast?.map (fun j => (o.ofs + j, o.sb, top))
  match i with
  | .lds o _ => rows o 653
  | .sts o => rows o 653
  | .ldc o _ => rows o 1819
  | .mvb o _ _ => some (2 ^ o.sh * o.mt * o.k - 1, o.sb, 104856)
  | .mvr o _ _ => some (o.mt * ((o.k + 15) / 16) - 1, o.sb, 104856)
  | .mvp o _ _ => some (8 * o.mt * o.k - 1, o.sb, 1819)
  | .mvw o _ _ => some (2 * o.mt * o.k - 1, o.sb, 1819)
  | _ => none

/-- The scalar an instruction writes, its new value, and whether that comes from the running device. What SADD makes of a value of the
device still comes from it, though R193 names its last writer alone: DESIGN CHOICE, log 78. -/
def Sim.writes (m : Sim) (i : Instr) : Option (Nat × Nat × Bool) :=
  match i with
  | .smov sd imm => some (sd, imm, false)
  | .sadd sd imm => some (sd, unsigned 32 ((SMap.get (fun _ => 0) m.scal sd : Nat) + signed 22 imm), m.taint.contains sd)
  | .cyc sd _ => some (sd, 0, true)
  | .tick sd _ => some (sd, 0, true)
  | .aflg sd _ => some (sd, 0, true)
  | _ => none

/-- Instructions that write S0..S7 only (R173). -/
def deviceWrite (i : Instr) : Bool :=
  match i with
  | .cyc _ _ => true
  | .tick _ _ => true
  | .aflg _ _ => true
  | _ => false

/-- The codes an instruction of the path shows, at the scalars it meets. -/
def Sim.judge (m : Sim) (det : Bool) (i : Instr) : List Nat :=
  let addr := match reach i with
    | some (last, sb, top) =>
      (if (m.bases det sb).any (fun v => v + last > top) then [0x13] else []) ++ (if m.tainted sb then [0x14] else [])
    | none => []
  let scal := match m.writes i with
    | some (sd, _, _) =>
      (if sd > 12 || (m.ticking && sd > 7) then [0x15] else []) ++ (if deviceWrite i && sd > 7 then [0x17] else [])
    | none => []
  addr ++ scal

/-- The static run after an instruction that is not TWAIT. -/
def Sim.step (m : Sim) (det : Bool) (i : Instr) : Sim :=
  let u := issueOf i
  let m := { m with codes := m.judge det i ++ m.codes, pipe := m.pipe.after u (m.pipe.issueCycle u) 0 }
  let m := match m.writes i with
    | some (sd, v, dev) =>
      { m with scal := SMap.set (fun _ => 0) m.scal sd v
               taint := if dev then (if m.taint.contains sd then m.taint else sd :: m.taint) else m.taint.filter (· != sd) }
    | none => m
  match i with
  | .loop c l => { m with pc := m.pc + 1, loopTop := m.pc + 1, loopEnd := m.pc + l, loopLeft := c }
  | _ =>
    if m.loopLeft > 0 && m.pc = m.loopEnd then
      if m.loopLeft = 1 then { m with pc := m.pc + 1, loopLeft := 0 }
      else { m with pc := m.loopTop, loopLeft := m.loopLeft - 1 }
    else { m with pc := m.pc + 1 }

/-- A program's static run from an entry point: it ends at TWAIT, at the end of program memory, or after `fuel`
instructions. A refused word counts as NOP; it has its own code. `bad` are the refused LOOPs. -/
def Sim.run (p : Nat → Option Instr) (det : Bool) (bad : List Nat) : Nat → Sim → Sim
  | 0, m => m
  | fuel + 1, m =>
    if m.pc ≥ memInstrs then m
    else
      let i := (p m.pc).getD .nop
      match i with
      | .twait _ => { m with count := some m.pipe.waitCycle }
      | _ => Sim.run p det bad fuel ({ m with metBad := m.metBad || bad.contains m.pc }.step det i)

/-- Instructions the static run follows: one more than the largest legal count of INIT. -/
def staticFuel : Nat := 120001

/-- What the loader learns of a program: the code of its refusal, if any, and TICK's static count (R185, R193, R418). -/
structure ProgResult where
  code : Option Nat
  count : Nat
  deriving DecidableEq, Repr

/-- The lowest of a list of codes. -/
def lowestCode : List Nat → Option Nat
  | [] => none
  | c :: r => some (r.foldl min c)

/-- The codes that apply, as a list. -/
def codeIf (c : Bool) (k : Nat) : List Nat := if c then [k] else []

/-- A TWAIT stands at or after an instruction, which the program then reaches: no loop goes back for ever (R185). -/
def twaitAhead (prog : Program) (pc : Nat) : Bool :=
  (prog.drop pc).any (fun i => match i with | some (.twait _) => true | _ => false)

/-- A static count refused: above its limit, unlike the recorded one, or with no TWAIT reached, which leaves no count. A run that
meets a bad LOOP has no count to compare, and a program entered beyond program memory is not run. -/
def countCodes (m : Sim) (prog : Program) (limit recorded above : Nat) : List Nat :=
  match m.count with
  | some c => codeIf (c > limit) above ++ codeIf (!m.metBad && c ≠ recorded) 0x0D
  | none => if m.pc < memInstrs && twaitAhead prog m.pc then [above] else [0x11]

/-- The checks of R193 on a program of `words`, with its entry points and recorded counts, for an image with or without
DET. DEDUCED, log 44. -/
def checkProgram (words : List Nat) (initE tickE initC tickC : Nat) (det : Bool) : ProgResult :=
  let prog : Program := words.map decodeWord
  let table : SMap (Option Instr) := (List.range words.length).zip prog
  let fetch (k : Nat) : Option Instr := SMap.get (fun _ => some .nop) table k
  let illegal := prog.any (fun i => match i with | none => true | some i => !fieldsLegal i)
  let bad := badLoops 0 prog
  let init := Sim.run fetch det bad staticFuel { pc := initE }
  let tick := Sim.run fetch det bad staticFuel { pc := tickE, scal := init.scal, taint := init.taint, ticking := true }
  let codes :=
    codeIf illegal 0x0F ++ codeIf (!bad.isEmpty) 0x10 ++
    codeIf (det && prog.any (fun i => i.any vMarked)) 0x0E ++
    codeIf (prog.any (fun i => i.any (fun i => fieldsLegal i && beyondArray i))) 0x12 ++
    codeIf (initE ≥ memInstrs || tickE ≥ memInstrs) 0x13 ++
    (if initE ≥ memInstrs then [] else countCodes init prog 120000 initC 0x0C) ++
    (if tickE ≥ memInstrs then [] else countCodes tick prog (if det then 440 else 270) tickC 0x0B) ++
    init.codes ++ tick.codes
  { code := lowestCode codes, count := tick.count.getD 0 }

end Sys2Proof.Machine
end

