-- ==== Sys2Proof/Machine/Loader.lean ====
section
/-! DEFINITION. The image in flash: bank headers and their checks, sections with their fallback, and the reading of each
section's body into the memories and what the acceptance will write (R410 to R415, R418). -/

namespace Sys2Proof.Machine

/-- A section table entry (Table 14-3). -/
structure Sect where
  ty : Nat
  index : Nat
  rsv : Nat
  off : Nat
  len : Nat
  crc : Nat
  deriving DecidableEq, Repr

/-- A bank header's fields, with its 4 KiB (Table 14-2). -/
structure Header where
  bytes : List Byte
  generation : Nat
  det : Bool
  count : Nat
  imageLen : Nat
  authLen : Nat
  sects : List Sect
  deriving DecidableEq, Repr

/-- The section table entry at an offset. -/
def sectAt (h : List Byte) (o : Nat) : Sect :=
  { ty := leAt h o 2, index := leAt h (o + 2) 1, rsv := leAt h (o + 3) 1, off := leAt h (o + 4) 4, len := leAt h (o + 8) 4
    crc := leAt h (o + 12) 4 }

/-- The header of a bank, when it is valid (R410). -/
def headerOf (f : Flash) (x : Nat) : Option Header :=
  let h := readFlash f (bankBase x) 4096
  if leAt h 0 4 = 0x49474C59 && leAt h 0xFFC 4 = (crc32 (h.take 0xFFC)).toNat then
    some { bytes := h, generation := leAt h 0x10 4, det := leAt h 7 1 % 2 = 1, count := leAt h 0x18 1, imageLen := leAt h 0x14 4
           authLen := leAt h 0x140 2, sects := (List.range 16).map (fun i => sectAt h (0x40 + 16 * i)) }
  else none

/-- The primary bank: the valid one, or the one of higher GENERATION, A when equal (R412). -/
def primaryOf (a b : Option Header) : Nat :=
  match a, b with
  | some x, some y => if y.generation > x.generation then 1 else 0
  | none, some _ => 1
  | _, _ => 0

/-- The entries in use (an entry of TYPE 0 is unused). -/
def Header.used (h : Header) : List Sect := (h.sects.take h.count).filter (fun e => e.ty != 0)

/-- A refusal: its code and what SECTION names. -/
abbrev Refused := Option (Nat × Nat)

/-- One entry is out of its range (Tables 14-3 and 14-4, R413). -/
def badEntry (e : Sect) : Refused :=
  if e.ty > 9 then some (0x17, 0xF)
  else if e.rsv != 0 || e.index > (if e.ty = 2 then 3 else 0) || e.off % 4096 != 0 || e.off < 0x1000 || e.len = 0 ||
     e.off + e.len > 0x1000000 then some (0x17, e.ty)
  else none

/-- Two entries overlap, or name the same section (R413). -/
def clash (x y : Sect) : Bool :=
  (x.off < y.off + y.len && y.off < x.off + x.len) || (x.ty = y.ty && x.index = y.index)

/-- The first entry that clashes with an earlier one. -/
def clashing : List Sect → List Sect → Refused
  | _, [] => none
  | seen, e :: rest => if seen.any (clash e) then some (0x17, e.ty) else clashing (e :: seen) rest

/-- The first required section that is absent, lowest TYPE first (Table 14-4). -/
def absent (h : Header) : Refused :=
  ((List.range 7).find? (fun ty => ty != 0 && !h.used.any (fun e => e.ty = ty && e.index = 0))).map (fun ty => (0x08, ty))

/-- The bytes of a list are all zero between two offsets. -/
def zeros (h : List Byte) (lo hi : Nat) : Bool := (bytesAt h lo (hi - lo)).all (· = 0)

/-- The checks of the primary header, in the order of R415: the first condition met (Table 14-6). DEDUCED, log 44. -/
def headerCheck (h : Header) (buildV : Bool) : Refused :=
  let b := h.bytes
  let build := leAt b 6 1
  if leAt b 4 2 != 1 then some (0x05, 0)
  else if build != (if buildV then 1 else 0) then some (0x04, 0)
  else if leAt b 8 8 != Config.chipId.toNat then some (0x1A, 0)
  else if leAt b 7 1 > 1 || h.count = 0 || h.count > 16 || !zeros b 0x19 0x20 || h.authLen > 1024 || !zeros b 0x142 0x180 ||
     !zeros b 0x580 0xFFC || h.imageLen > 0x1000000 || !zeros b (0x40 + 16 * h.count) 0x140 then some (0x17, 0)
  else
    (h.used.findSome? badEntry).orElse (fun _ => (clashing [] h.used).orElse (fun _ => absent h))

/-- A section's bytes with the fallback of R415, and its outcome: 1 the primary bank, 2 the second, 3 failed. `q` is the
second bank's header, if valid. -/
def sectionBytes (f : Flash) (p : Nat) (q : Option Header) (e : Sect) : List Byte × Nat :=
  let good (d : List Byte) : Bool := (crc32 d).toNat = e.crc
  let d := readFlash f (bankBase p + e.off) e.len
  if good d then (d, 1)
  else
    match q.bind (fun h => h.used.find? (fun x => x.ty = e.ty && x.index = e.index && x.len = e.len && x.crc = e.crc &&
        x.off + x.len ≤ 0x1000000)) with
    | none => (d, 3)
    | some x =>
      let d := readFlash f (bankBase (1 - p) + x.off) e.len
      if good d then (d, 2) else (d, 3)

/-! Section bodies (R414, Table 14-5). -/

/-- A load record: memory, first word, its words, and whether a byte that must be 0 is not. -/
structure LoadRec where
  mem : Nat
  first : Nat
  words : List MWord
  dirty : Bool
  deriving DecidableEq, Repr

/-- The load records of a body; none where its length is not that of its heads. -/
def loadRecs : Nat → List Byte → Option (List LoadRec)
  | 0, _ => some []
  | fuel + 1, bs =>
    if bs.isEmpty then some []
    else
      let n := leAt bs 8 4
      let body := bs.drop 16
      if bs.length < 16 || body.length < 16 * n then none
      else
        let r : LoadRec :=
          { mem := leAt bs 0 1, first := leAt bs 4 4, words := (chunks 16 (body.take (16 * n))).map (fun w => BitVec.ofNat 128 (leNat w))
            dirty := !zeros bs 1 4 || !zeros bs 12 16 }
        (loadRecs fuel (body.drop (16 * n))).map (r :: ·)

/-- A coefficient word lies in a bias row, CM rows 1,708..1,803 of a bank (R250). -/
def biasWord (w : Nat) : Bool := 15372 ≤ w % 16384 && w % 16384 < 16236

/-- A record's words lie within its memory and the area its section may load (R250, R414). -/
def recFits (weights : Bool) (r : LoadRec) : Bool :=
  r.first + r.words.length ≤ memWords r.mem &&
  (r.mem = 4 && weights || (r.mem = 2 && (List.range r.words.length).all (fun i => biasWord (r.first + i) == weights)))

/-- The codes that load records show. -/
def recCodes (weights : Bool) (rs : List LoadRec) : List Nat :=
  codeIf (rs.any (fun r => r.mem ≤ 4 && !recFits weights r)) 0x08 ++ codeIf (rs.any (fun r => r.mem > 4 || r.dirty)) 0x17

/-- Words laid over a memory from an address, in canonical form. -/
def layWords (m : SMap MWord) (first : Nat) (ws : List MWord) : SMap MWord :=
  m.filter (fun e => e.1 < first) ++
  (((List.range ws.length).zip ws).filter (fun e => e.2 != 0)).map (fun e => (first + e.1, e.2)) ++
  m.filter (fun e => first + ws.length ≤ e.1)

/-- Load records applied in order: a later load of a word replaces an earlier one. -/
def Eng.applyRecs (e : Eng) (rs : List LoadRec) : Eng :=
  rs.foldl (fun e r => if r.mem = 4 then { e with wm := layWords e.wm r.first r.words }
                       else { e with cm := layWords e.cm r.first r.words }) e

/-- What a section's body gives: the codes of its own checks, and the block with its content loaded. -/
structure Loaded where
  codes : List Nat
  blk : Block

/-- The operating table (R178, R414): the journaled table, when there is one, takes its place later. -/
def Block.loadTable (b : Block) (d : List Byte) : Loaded :=
  if d.length != 262144 then { codes := [0x08], blk := b }
  else
    { codes := codeIf ((leWords 2 d).any (fun v => v / 32 > 1300)) 0x17
      blk := (b.modEng (fun e => { e with tm := tableWords d })).modImg (fun i => { i with staged := { i.staged with tableOk := true } }) }

/-- A coefficient set: PHASES and TICKS, then its load records. -/
def Block.loadCoefs (b : Block) (d : List Byte) : Loaded :=
  match loadRecs d.length (d.drop 16) with
  | none => { codes := [0x08], blk := b }
  | some rs =>
    let ph := leAt d 0 1
    if d.length < 16 then { codes := [0x08], blk := b }
    else
      { codes := codeIf (ph > (if b.isV then 4 else 2)) 0x0A ++ codeIf ((ph != 2 && ph != 4) || leAt d 1 1 > 15 || !zeros d 2 16) 0x17 ++
                 recCodes false rs
        blk := b.modEng (fun e => e.applyRecs rs) }

/-- The engine program: entries and counts, then its words, four to a word of program memory (R193). -/
def Block.loadProgram (b : Block) (d : List Byte) : Loaded :=
  if d.length < 16 || d.length % 4 != 0 then { codes := [0x08], blk := b }
  else
    let ws := leWords 4 (d.drop 16)
    let r := checkProgram ws (leAt d 0 2) (leAt d 2 2) (leAt d 4 4) (leAt d 8 4) b.img.staged.det
    { codes := r.code.toList ++ codeIf (ws.length > memInstrs) 0x16 ++ codeIf (!zeros d 12 16) 0x17
      blk := b.modEng (fun e => { e with
        pm := layWords [] 0 ((chunks 16 (d.drop 16)).map (fun w => BitVec.ofNat 128 (leNat w)))
        initEntry := leAt d 0 2, tickEntry := leAt d 2 2, static := r.count }) }

/-- The predictor weights (R250). -/
def Block.loadWeights (b : Block) (d : List Byte) : Loaded :=
  match loadRecs d.length d with
  | none => { codes := [0x08], blk := b }
  | some rs => { codes := recCodes true rs, blk := b.modEng (fun e => e.applyRecs rs) }

/-- Registers a limits section may not write (R414). -/
def forbiddenRegs : List Nat :=
  [ENG_CTL_HALT.base, ENG_MADDR_MEM.base, IMG_CTL_HOLD_DARK.base, IMG_RCADDR_ENTRY.base, ADC_CAL_CTL_POINT.base,
   PMB_CTL_CMD.base, PMB_DATA_DATA.base] ++ (List.range 4).map (fun i => ENG_MDATA_DATA.base + 4 * i)

/-- A register write of a limits section is allowed: a register that holds an RW field (R414). -/
def writeAllowed (a : Nat) : Bool :=
  match findReg a with
  | some d => d.rw != 0 && !forbiddenRegs.contains a
  | none => false

/-- A start-list entry within the limits of R433. -/
def startOk (devs : Nat) (w : PmbWrite) : Bool :=
  w.dev < devs && w.size ≤ 2 && w.data < 256 ^ w.size &&
  (if w.cmd = 0x03 then w.size = 0 else pmbWrites.contains w.cmd && w.size > 0)

/-- The limits: the margin table, register writes in order, which set no reserved bit (R6), and the PMBus table (R414, R433). DESIGN
CHOICE, log 14. -/
def Block.loadLimits (b : Block) (d : List Byte) : Loaded :=
  let n := leAt d 32 4
  if d.length < 36 + 8 * n then { codes := [0x08], blk := b }
  else
    let ws := (chunks 8 (bytesAt d 36 (8 * n))).map (fun w => (leAt w 0 4, BitVec.ofNat 32 (leAt w 4 4)))
    let bad := codeIf (ws.any (fun w => !writeAllowed w.1 || (w.2 &&& reservedBits w.1) != 0)) 0x17
    match Config.pmbTable (d.drop (36 + 8 * n)) with
    | none => { codes := 0x08 :: bad, blk := b }
    | some (fast, devs, start) =>
      { codes := bad ++ codeIf (devs.length > 8 || devs.any (· > 127) || start.length > 64 || start.any (fun w => !startOk devs.length w)) 0x17
        blk := b.modImg (fun i => { i with staged := { i.staged with margin := d.take 32, writes := ws, fast := fast, devs := devs, start := start } }) }

/-- Pairs of 2-byte fields. -/
def pairs (d : List Byte) : List (Nat × Nat) := (chunks 4 d).map (fun w => (leAt w 0 2, leAt w 2 2))

/-- The calibration: the zero codes lie within the 10 bits of PH_CAL.ZERO_CODE (Table 14-5). -/
def Block.loadCalibration (b : Block) (d : List Byte) : Loaded :=
  if d.length != 6592 then { codes := [0x08], blk := b }
  else
    let phs := pairs (bytesAt d 1088 4352)
    { codes := codeIf (phs.any (fun c => c.1 > 0x3FF)) 0x17
      blk := b.modImg (fun i => { i with staged := { i.staged with
        temps := pairs (d.take 1088), phs := phs
        coefs := (leWords 4 (d.drop 5440)).map (BitVec.ofNat 32) } }) }

/-- A ring configuration within the ranges of Table 15-5 (R468). -/
def ringOk (d : List Byte) : Bool :=
  let n := leAt d 1 1
  let floors := leWords 2 (bytesAt d 16 128)
  let maxes := leWords 2 (bytesAt d 144 128)
  let freqs := leWords 2 (bytesAt d 272 128)
  2 ≤ n && n ≤ 64 && leAt d 0 1 < n && leAt d 2 1 < n && (leAt d 3 1 = 0xFF || (leAt d 3 1 < n && leAt d 3 1 != leAt d 2 1)) &&
  leAt d 4 1 < 16 && leAt d 5 1 < 2 && zeros d 7 8 && zeros d 10 16 && floors.sum ≤ leAt d 8 2 &&
  (List.range 64).all (fun i => floors.getD i 0 ≤ maxes.getD i 0 && maxes.getD i 0 ≤ 4095 && (i < n || maxes.getD i 0 = 0)) &&
  (List.range 64).all (fun i => 1 ≤ freqs.getD i 0 && (i = 63 || freqs.getD i 0 ≤ freqs.getD (i + 1) 0))

/-- The ring configuration: the registers it loads, and its tables (R468, R469). -/
def ringCfg (d : List Byte) : RingCfg :=
  let w (f : Fld) (v : Nat) (x : Word) : Word := Fld.put f x v
  let cfg := w HOOP_CFG_N (leAt d 1 1) (w HOOP_CFG_MEMBER_ID (leAt d 0 1) (w HOOP_CFG_ALLOC_ID (leAt d 2 1)
    (if leAt d 3 1 = 0xFF then resetWord HOOP_CFG_N.base
     else w HOOP_CFG_BACKUP_VALID 1 (w HOOP_CFG_BACKUP_ID (leAt d 3 1) (resetWord HOOP_CFG_N.base)))))
  let pace := w HOOP_PACE_FOLLOW (leAt d 5 1) (w HOOP_PACE_PACE_M (leAt d 6 1) (w HOOP_PACE_PGROUP (leAt d 4 1)
    (resetWord HOOP_PACE_FOLLOW.base)))
  { writes := [(HOOP_CFG_N.base, cfg), (HOOP_PACE_FOLLOW.base, pace),
               (HOOP_ALLOC_ENT.base, w HOOP_ALLOC_ENT (leAt d 8 2) (resetWord HOOP_ALLOC_ENT.base))]
    floors := leWords 2 (bytesAt d 16 128), maxes := leWords 2 (bytesAt d 144 128), freqs := leWords 2 (bytesAt d 272 128) }

/-- The ring configuration section: its checks, and what it gives the ring (R468). -/
def Block.loadRing (b : Block) (d : List Byte) : Loaded :=
  if d.length != 400 then { codes := [0x08], blk := b }
  else { codes := codeIf (!ringOk d) 0x17, blk := b.modImg (fun i => { i with staged := { i.staged with ring := some (ringCfg d) } }) }

/-- The group definitions, whose words of REG_GLAT set no reserved bit (R6, R11, R164). -/
def Block.loadGroups (b : Block) (d : List Byte) : Loaded :=
  if d.length != 384 then { codes := [0x08], blk := b }
  else
    let gs := (d.take 256).map (·.toNat)
    let lat := (leWords 4 (d.drop 256)).map (BitVec.ofNat 32)
    { codes := codeIf (gs.any (fun g => g > 0x1F && g != 0xFF)) 0x09 ++
        codeIf (lat.any (fun w => (w &&& reservedBits REG_GLAT_WAKE.base) != 0)) 0x17
      blk := b.modImg (fun i => { i with staged := { i.staged with groups := some (gs, lat) } }) }

/-- A section's body by its TYPE (Table 14-4); the build record is opaque. -/
def Block.loadBody (b : Block) (ty : Nat) (d : List Byte) : Loaded :=
  if ty = 1 then b.loadTable d
  else if ty = 2 then b.loadCoefs d
  else if ty = 3 then b.loadProgram d
  else if ty = 4 then b.loadWeights d
  else if ty = 5 then b.loadLimits d
  else if ty = 6 then b.loadCalibration d
  else if ty = 7 then b.loadRing d
  else if ty = 8 then b.loadGroups d
  else { codes := [], blk := b }

/-- A critical section: all but weights, ring, groups and build record (Table 14-4). -/
def critical (ty : Nat) : Bool := ty < 4 || ty = 5 || ty = 6

/-- The field of IMG_SECT for a section type (Table 14-17). -/
def sectFld (ty : Nat) : Fld := ⟨IMG_SECT_OPTABLE.base, 3 * ty - 1, 3 * ty - 3⟩

/-- An outcome is reported, the worst of a type's sections (R440); a section from the second bank raises IMG_BANK.
DEDUCED, log 44. -/
def Block.noteOutcome (b : Block) (ty outcome : Nat) : Block :=
  let b := b.put (sectFld ty) (max (b.fld (sectFld ty)) outcome)
  if outcome = 2 then b.report srcIMG_BANK 0 else b

/-- The code of a section that failed and could be done without (Table 14-6). -/
def softCode (ty : Nat) : Nat := if ty = 4 then 0x40 else if ty = 7 then 0x41 else if ty = 8 then 0x42 else 0x43

/-- The failure of a section that could be done without: its code is posted, if it is the first, and IMG_BANK raised; without
weights the weight memory and the bias rows hold zeros (R250, R418). -/
def Block.doWithout (b : Block) (ty : Nat) : Block :=
  let b := if b.fld IMG_STATUS_ERR = 0 then (b.put IMG_STATUS_ERR (softCode ty)).put IMG_STATUS_SECTION ty else b
  let b := if ty = 4 then
      (b.modEng (fun e => { e with wm := [], cm := e.cm.filter (fun w => !biasWord w.1) })).put ENG_PRED_DISABLED 1
    else b
  b.report srcIMG_BANK 0

/-- One section read, checked and loaded: the block, its bytes, and a refusal. A section that fails its own checks leaves
nothing staged. -/
def Block.takeSection (b : Block) (f : Flash) (p : Nat) (q : Option Header) (e : Sect) : Block × List Byte × Refused :=
  let r := sectionBytes f p q e
  let b := b.noteOutcome e.ty r.2
  if r.2 = 3 then
    if critical e.ty then (b, r.1, some (0x07, e.ty)) else (b.doWithout e.ty, r.1, none)
  else
    let l := b.loadBody e.ty r.1
    match lowestCode l.codes with
    | some c => (b, r.1, some (c, e.ty))
    | none => (l.blk, r.1, none)

/-- The sections in table order, to the first refusal; with the bytes read for the digest, and whether every one passed.
DEDUCED, log 44. -/
def Block.takeSections (b : Block) (f : Flash) (p : Nat) (q : Option Header) : List Sect → List Byte → Block × List Byte × Refused
  | [], acc => (b, acc, none)
  | e :: rest, acc =>
    match b.takeSection f p q e with
    | (b, d, none) => Block.takeSections b f p q rest (acc ++ d)
    | (b, d, some c) => (b, acc ++ d, some c)

end Sys2Proof.Machine
end

