-- ==== Sys2Proof/Machine/Image.lean ====
section
/-! DEFINITION. The image load (chapter 14): the load itself, acceptance and refusal, minimum safe mode's entry, and the
waits on the digest and on IMG_TRUSTED (R415 to R420). -/

namespace Sys2Proof.Machine

/-- BUILD_V is sampled: the configuration, and the positions it populates (R3, R23). -/
def Block.sampleStrap (b : Block) (buildV : Bool) : Block :=
  let b := (b.put CFG_STRAP_BUILD (if buildV then 1 else 0)).put CFG_STRAP_SAMPLED 1
  b.each phases (fun b p =>
    let now := populatedIn buildV p
    if now = b.bit PH_STATE_POPULATED p then b
    else
      let b := b.put PH_STATE_POPULATED (if now then 1 else 0) p
      let b := b.put PH_STATE_LOGICAL (if now && p < 1024 then p else noLogical) p
      b.setCond p (if now then cParked else cRetired))

/-! The wear log (R90, R397, R430). -/

/-- An entry restores the substitution it records; `before` are the entries ahead of it, of which each remap of the same word has
taken a row of its own. Failed arrays are read from the log by the engine's start. DESIGN CHOICE, log 14. -/
def Block.restoreWear (b : Block) (before : List WearRec) (r : WearRec) : Block :=
  if r.kind = 0 then
    (match r.serves with
     | none => ((b.setCond r.elem cRetired).put PH_STATE_LOGICAL noLogical r.elem).modP r.elem (fun x => { x with replaced := true })
     | some l => (b.setCond r.elem cParked).put PH_STATE_LOGICAL l r.elem)
  else if r.kind = 1 then
    if r.elem < 256 then b.put THM_SENSOR_STATE r.val r.elem
    else
      let w := r.elem - 256
      (match r.serves with
       | some n => ((b.put THM_SPARE_STATE 1 w).put THM_SPARE_SERVES n w).put THM_SPARE_OFS r.val w
       | none =>
         let b := b.put THM_SENSOR_STATE r.val r.elem
         if r.val = 3 then b else b.put THM_SPARE_STATE 2 w)
  else if r.kind = 2 then
    (match r.serves with
     | some n => (b.put ADC_SPARE_STATE 2 (r.elem - 256)).put ADC_SPARE_SERVES n (r.elem - 256)
     | none => b)
  else if r.kind = 4 then
    let x : MemWord := { mem := r.elem / 1048576, word := r.elem % 1048576 }
    if b.eng.remapsOf x > remapsLogged before x then b
    else match b.takeRow x.mem with
      | some b => b.modEng (fun e => { e with remapped := e.remapped ++ [x] })
      | none => b
  else b

/-- The log is applied once after each reset of the weave domain, before any region soft-starts; a weave whose last idle
spare it takes raises POOL_EMPTY (R379). DEDUCED, log 53. -/
def Block.applyWear (b : Block) : Block :=
  if b.img.applied then b
  else
    let log := b.img.wear
    (b.withPools (fun b => ((List.range log.length).zip log).foldl (fun b e => b.restoreWear (log.take e.1) e.2) b)).modImg (fun i =>
      { i with applied := true })

/-! Calibration (R85, R96, R300, R301, R366, R430). -/

/-- The records of a position: its zero code and R_path at test, with a new value of R_path starting the filter afresh.
DEDUCED, log 41; DESIGN CHOICE, log 46. -/
def Block.setPhaseCal (b : Block) (p : Nat) (c : Nat × Nat) : Block :=
  let b := b.put PH_CAL_ZERO_CODE c.1 p
  b.modP p (fun x => { x with zeroTest := c.1, rTest := 1024 * c.2, rPath := if x.rTest = 1024 * c.2 then x.rPath else 1024 * c.2 })

/-- The 288 coefficient words. DEDUCED, log 45. -/
def Block.setCoefs (b : Block) (ws : List Word) : Block :=
  b.each (List.range 288) (fun b c => b.setReg (ADC_COEF_GAIN.base + 4 * c) (ws.getD c (resetWord (ADC_COEF_GAIN.base + 4 * c))))

/-- The calibration section is in force; or nominal sensor codes, and the coefficients' reset words, unless results have
been journaled. DEDUCED, log 45. -/
def Block.calibrate (b : Block) (used : Bool) : Block :=
  let g := b.img.staged
  let b := b.modThm (fun t => { t with cal := if used then SMap.tab (fun _ => none) (fun i => g.temps[i]?) sensors else [] })
  let b := b.put THM_STATUS_NOMINAL (if used then 0 else 1)
  let b := b.each phases (fun b p => b.setPhaseCal p (if used then g.phs.getD p (0, 0) else Config.nominalPhase p))
  match g.calJ with
  | some ws => (b.setCoefs ws).put ADC_STATUS_NOMINAL 0
  | none => (b.setCoefs (if used then g.coefs else [])).put ADC_STATUS_NOMINAL (if used then 0 else 1)

/-- The channel results of a load: dead times at their start value, and in Yalga-V the round trips measured (R70, R96). -/
def Block.channels (b : Block) (dly : List Nat) : Block :=
  b.each (phases.filter b.populated) (fun b p =>
    let b := b.put PH_CAL_DEADTIME (if b.isV then 3 else 4) p
    match dly[p]? with
    | some d => if b.isV then b.put PH_CAL_CHAN_DLY (min d 255) p else b
    | none => b)

/-- The trigger setting reaches every stage that is idle, and waits for the others (R357). -/
def Block.sendTriggers (b : Block) : Block :=
  let ev := b.fld ADC_PHTRIG_EVENT
  let dl := b.fld ADC_PHTRIG_DELAY
  (b.each (phases.filter b.populated) (fun b p => b.modP p (fun x =>
    if !b.isV || x.drive = .off then { x with trigEvent := ev, trigDelay := dl, sentEvent := ev, sentDelay := dl, trigDue := false
                                              trigCmd := if b.isV then trigPulses (trigSymbols ev dl) else [] }
    else { x with trigDue := x.trigEvent != ev || x.trigDelay != dl }))).notePend

/-- The droop delay chains are calibrated at the load, unless their loop is being replaced (R120). -/
def Block.loadChains (b : Block) : Block :=
  if b.clk.forcing || !b.clkReady b.activeLoop then b
  else b.modClk (fun c => { c with chainAt := some b.now, chainLoop := b.fld CLK_STATUS_PH_ACTIVE })

/-! The end of a load. -/

/-- LOADING ends, and LOAD_MS tells its length from XSPI_RESET_N rising (R423, R438). -/
def Block.endLoad (b : Block) : Block :=
  if b.bit IMG_STATUS_LOADING then
    (b.put IMG_STATUS_LOADING 0).put IMG_STATUS_LOAD_MS (min 4095 ((b.now - b.img.rose) / 1000000))
  else b

/-- Registers take their reset words. DEDUCED, log 55. -/
def Block.resetRegs (b : Block) (as : List Nat) : Block := as.foldl (fun b a => b.setReg a (resetWord a)) b

/-- Element addresses of a register array. -/
def addrs (f : Fld) (count : Nat) : List Nat := (List.range count).map (fun i => f.base + 4 * i)

/-- A section of a type was in the image and failed (Table 14-17). -/
def Block.sectFailed (b : Block) (ty : Nat) : Bool := b.fld (sectFld ty) = 3

/-- The group registers of a load (R164, R414): the section's; of one that failed no region is in a group and REG_GLAT is at reset
(Table 14-6); an image without the section leaves them as they stand (R513). DEDUCED, log 45. -/
def Block.setGroups (b : Block) (g : Option (List Nat × List Word)) : Block :=
  match g with
  | none =>
    if b.sectFailed 8 then (b.each regions (fun b n => b.put REG_GROUP_VALID 0 n)).resetRegs (addrs REG_GLAT_WAKE 32) else b
  | some (gs, lat) =>
    let b := b.each regions (fun b n =>
      let v := gs.getD n 0xFF
      (b.put REG_GROUP_VALID (if v = 0xFF then 0 else 1) n).put REG_GROUP_GROUP (if v = 0xFF then 0 else v) n)
    b.each groups (fun b i => b.storeWritable (REG_GLAT_WAKE.base + 4 * i) (lat.getD i 0))

/-- The chip has no ring configuration, and is not in the ring. -/
def Block.leaveRing (b : Block) : Block :=
  (b.put HOOP_STATUS_ROLE 0).modHoop (fun h => { h with cfgOk := false, acting := false, floors := [], maxes := [], freqs := [] })

/-- The ring configuration of a load (R468, R469): its registers and tables; with one that failed the chip is not in the ring
(Table 14-6); an image without the section leaves what stands (R513). DEDUCED, log 45. -/
def Block.setRing (b : Block) (r : Option RingCfg) : Block :=
  let none' := fun (_ : Nat) => 0
  let tab (l : List Nat) : SMap Nat := SMap.tab none' (fun i => l.getD i 0) (List.range 64)
  match r with
  | some c =>
    let kept (a : Nat) : Word := if a = HOOP_PACE_FOLLOW.base then Fld.mask HOOP_PACE_SLOWEST ||| Fld.mask HOOP_PACE_VALID ||| Fld.mask HOOP_PACE_PACE_IDX else 0
    let b := c.writes.foldl (fun b w => b.setReg w.1 ((b.reg w.1 &&& kept w.1) ||| (w.2 &&& ~~~(kept w.1)))) b
    let b := b.put HOOP_STATUS_ROLE (if b.hoop.acting then 1 else if b.mayAllocate then 2 else 0)
    b.modHoop (fun h => { h with cfgOk := true, floors := tab c.floors, maxes := tab c.maxes, freqs := tab c.freqs })
  | none => if b.sectFailed 7 then b.leaveRing else b

/-- The PMBus table of a load: the devices it names; what their last polls reported stands (R433, R445, R513). -/
def Block.setPmbus (b : Block) (fast : Bool) (devs : List Nat) (start : List PmbWrite) : Block :=
  let b := b.put PMB_STATUS_DEVICES devs.length
  let b := b.each (List.range 8) (fun b i => (b.put PMB_DEV_PRESENT (if i < devs.length then 1 else 0) i).put PMB_DEV_ADDR (devs.getD i 0) i)
  b.modImg (fun i => { i with fast := fast, devs := devs, start := start, sent := [], startDue := !devs.isEmpty })

/-- The register writes of the limits section, in order (R414). DEDUCED, log 45. -/
def Block.limitWrites (b : Block) (ws : List (Nat × Word)) : Block :=
  let b := ws.foldl (fun b w => b.applyWord w.1 (w.2 &&& writableBits w.1)) b
  b.modImg (fun i => { i with limitRegs := ws.map (·.1) })

/-- The image is accepted (R414, R417, R418): what the sections hold comes into force, the limits' writes last, and INIT may
run. DEDUCED, log 45. The time of the reducer's previous update is that of the acceptance, so that the first run after it books no
energy from before, of which R269 says nothing: DESIGN CHOICE, log 78. -/
def Block.accept (b : Block) : Block :=
  let g := b.img.staged
  let b := b.endLoad.modImg (fun i => { i with stage := 0, accepted := true, margin := g.margin })
  let b := (b.applyWear.calibrate true).setGroups g.groups
  let b := ((b.setRing g.ring).setPmbus g.fast g.devs g.start).limitWrites g.writes
  let b := b.sendTriggers.loadChains
  let b := (b.put ENG_STATUS_DET (if g.det then 1 else 0)).put ENG_CYCLES_STATIC b.eng.static
  let b := b.modRed (fun r => { r with counters := [], frameAt := b.now, updAt := b.now, goodFrame := false, held := true, frameB := none })
  let b := { b with flt := { b.flt with step := if b.flt.step = 3 then 4 else b.flt.step } }
  b.bypassCheck

/-- A region on the entry to minimum safe mode: it starts at once, or stays in RUN (R419). DEDUCED, log 57. -/
def Block.safeRegion (b : Block) (n : Nat) : Block :=
  let st := b.st n
  if st = sLeaving then
    ((b.setSt n sRun).allOn n).modR n (fun r => { r with descent := 0, abandon := false, capDark := false, integ := 0 })
  else if st = sRun then b.allOn n
  else if st = sDusk || (b.R n).resetDusk || st = sSoftstart then b.modR n (fun r => { r with keptWake := true })
  else if b.wakeIgnored n then b
  else b.startExit n

/-- A refusal's code leaves the operating table and the calibration unused; after 0x19 what was read and passed is used, as the
rule's words on reading after a refusal say (R419). DEDUCED, log 57. -/
def unusable (code : Nat) : Bool := code ≤ 5 || code = 0x18 || code = 0x1A

/-- S_n of each region: the table's minimum for F-index 0 in band 7, from the journal's table in force or from the image, or the fused
value (R419). DEDUCED, log 57. -/
def Block.safePoints (b : Block) (code : Nat) : SMap Nat :=
  let table := b.img.staged.tableJ || (!unusable code && b.img.staged.tableOk)
  let d := fun (_ : Nat) => Config.safeVcode.toNat
  if table then SMap.tab d (fun n => b.tableMin n 0 7) regions else []

/-- The image is refused with a code: minimum safe mode is entered (R418, R419). A load refused before its scan of the journal has
neither calibration results nor a table from it in force (R442). DEDUCED, log 57. A read through the host window that is in progress
is given up, with ENG_MDATA as it was, of which R209 says nothing: DESIGN CHOICE, log 78. -/
def Block.refuse (b : Block) (code sect : Nat) : Block :=
  let b := (((b.endLoad.put IMG_STATUS_ERR code).put IMG_STATUS_SECTION sect).put IMG_STATUS_SAFE 1)
  let b := b.modImg (fun i => { i with stage := 0, accepted := false, trustDue := false, sn := b.safePoints code, margin := [] })
  let b := b.applyWear.calibrate (!unusable code && !b.img.staged.temps.isEmpty)
  let held' := 3 + (if b.img.staged.calJ.isSome then 4 else 0) + (if b.img.staged.tableJ then 8 else 0)
  let b := (b.put IMG_JRNL_VALID (b.fld IMG_JRNL_VALID &&& held')).put IMG_JRNL_BANKS (b.fld IMG_JRNL_BANKS &&& held')
  let held := b.img.limitRegs ++ addrs REG_GROUP_VALID 256 ++ addrs REG_GLAT_WAKE 32 ++ [HOOP_PACE_FOLLOW.base]
  let b := b.resetRegs (b.img.limitRegs ++ addrs FLT_CFG_EN 128 ++ [THM_THR_STOP.base, THM_CFG_HOR.base])
  let b := { b with eff := held.foldl SMap.erase b.eff }
  let b := b.resetRegs (addrs REG_GROUP_VALID 256 ++ addrs REG_GLAT_WAKE 32 ++ [HOOP_CFG_N.base, HOOP_PACE_FOLLOW.base, HOOP_ALLOC_ENT.base])
  let b := (b.leaveRing.setPmbus false [] []).modImg (fun i => { i with limitRegs := [], startDue := false })
  let b := b.sendTriggers.loadChains.redirectCopied.modEng Eng.stop
  let b := { (b.put ENG_STATUS_STATE eStopped).put ENG_MADDR_BUSY 0 with flt := { b.flt with step := 0 } }
  let b := b.bypassCheck.report srcIMG_SAFE 0
  if b.bit IMG_CTL_HOLD_DARK then (b.each regions Block.goDown).stopCheck else b.each regions Block.safeRegion

/-- The two sections minimum safe mode uses are read, where they have not been and their entry lies within the sections' area of the
bank (R409, R419). -/
def Block.readRest (b : Block) (f : Flash) (p : Nat) (q : Option Header) (h : Header) : Block :=
  (h.used.filter (fun e => (e.ty = 1 || e.ty = 6) && b.fld (sectFld e.ty) = 0 && (badEntry e).isNone)).foldl
    (fun b e => (b.takeSection f p q e).1) b

/-- The refusal of a load whose flash can be read: what safe mode needs is read, and the journal scanned. -/
def Block.refuseLoad (b : Block) (f : Flash) (hdr : Option (Nat × Option Header × Header)) (r : Nat × Nat) : Block :=
  let b := match hdr with
    | some (p, q, h) => if unusable r.1 then b else b.readRest f p q h
    | none => b
  (b.scanJournal f).1.refuse r.1 r.2

/-- The sections of a load whose header passed (R415), the journal (R431), and the digest being formed (R416). -/
def Block.loadSections (b : Block) (f : Flash) (p : Nat) (q : Option Header) (h : Header) : Block :=
  let b := b.modImg (fun i => { i with staged := { i.staged with det := h.det } })
  match b.takeSections f p q h.used (bytesAt h.bytes 0x40 256) with
  | (b, _, some r) => b.refuseLoad f (some (p, q, h)) r
  | (b, data, none) =>
    let dig := sha256 data
    let j := b.scanJournal f
    let b := j.1
    let b := if j.2 then
        (if b.fld IMG_STATUS_ERR = 0 then (b.put IMG_STATUS_ERR 0x44).put IMG_STATUS_SECTION 0 else b).report srcIMG_BANK 0
      else b
    let b := b.each (List.range 8) (fun b i => b.setReg (IMG_DIGEST_DIGEST.base + 4 * i) (BitVec.ofNat 32 (leAt dig (4 * i) 4)))
    let passed := (List.range 9).all (fun k => b.fld (sectFld (k + 1)) != 3)
    b.modImg (fun i => { i with stage := 2, digestOk := dig == bytesAt h.bytes 0x20 32, allPassed := passed })

/-- Registers that report a load are cleared for it (R440, R441). -/
def Block.clearLoad (b : Block) : Block :=
  (b.resetRegs ([IMG_SECT_OPTABLE.base, IMG_GEN_GENERATION.base] ++ addrs IMG_DIGEST_DIGEST 8)).put IMG_AUTHSEL_LEN 0

/-- IMAGE_LOAD: the flash is ready and the memories are tested; SFDP, both headers, the strap, then every section (R415).
`chanDly` are the channel round trips measured at the load, by position. -/
def Block.imageLoad (b : Block) (buildV : Bool) (f : Flash) (chanDly : List Nat) : Block :=
  if b.img.stage != 1 || !b.img.flashRdy || !b.img.memTested then b
  else
    let b := b.clearLoad
    if !f.sfdpOk then ((b.sampleStrap buildV).channels chanDly).refuse 0x02 0
    else if f.density < 0x04000000 then ((b.sampleStrap buildV).channels chanDly).refuse 0x03 0
    else
      let ha := headerOf f 0
      let hb := headerOf f 1
      let p := primaryOf ha hb
      let b := (b.sampleStrap buildV).channels chanDly
      match (if p = 0 then ha else hb) with
      | none => b.refuseLoad f none (0x01, 0)
      | some h =>
        let q := if p = 0 then hb else ha
        let b := ((b.put IMG_STATUS_PRIMARY p).put IMG_AUTHSEL_LEN h.authLen).setReg IMG_GEN_GENERATION.base (BitVec.ofNat 32 h.generation)
        let b := b.modImg (fun i => { i with auth := bytesAt h.bytes 0x180 1024 })
        match headerCheck h buildV with
        | some r => b.refuseLoad f (some (p, q, h)) r
        | none => b.loadSections f p q h

/-- IMAGE_LOAD (R415). -/
def execImageLoad (t : Nat) (buildV : Bool) (f : Flash) (chanDly : List Nat) (s : State) : Host.Outcome State Fault Refusal :=
  s.run (fun b => (b.at t).imageLoad buildV f chanDly)

/-- LOAD_TIMEOUT: a load not finished, or a flash not ready, 1,200 ms after XSPI_RESET_N rose; the strap is sampled if it has
not been for this load (R3, R408, R423). -/
def execLoadTimeout (t : Nat) (buildV : Bool) (s : State) : Host.Outcome State Fault Refusal :=
  s.run (fun b =>
    let b := b.at t
    if (b.img.stage = 1 || b.img.stage = 2) && b.img.rose + 1200000000 ≤ b.now then
      (if b.img.stage = 1 then (b.clearLoad.sampleStrap buildV).channels [] else b).refuse 0x19 0
    else b)

/-- DIGEST_READY: IMG_DIGEST is final and compared; a mismatch with every section passing refuses the image; IMG_TRUSTED is
sampled, and the image accepted or the wait of R417 begun (R416, R417). -/
def Block.digestReady (b : Block) (trusted : Bool) : Block :=
  if b.img.stage != 2 then b
  else
    let b := (b.put IMG_STATUS_DIGEST_READY 1).put IMG_STATUS_DIGEST_OK (if b.img.digestOk then 1 else 0)
    let b := { b with trustedPin := trusted }.modImg (fun i => { i with digestAt := b.now })
    if b.img.allPassed && !b.img.digestOk then b.refuse 0x06 0
    else if !Config.trustReq then b.accept.modImg (fun i => { i with trustDue := !trusted })
    else if trusted then b.accept
    else b.endLoad.modImg (fun i => { i with stage := 3 })

/-- DIGEST_READY (R416). -/
def execDigestReady (t : Nat) (trusted : Bool) (s : State) : Host.Outcome State Fault Refusal :=
  s.run (fun b => (b.at t).digestReady trusted)

/-- IMG_TRUSTED_RISE: with the pin high the wait of R417 ends with the image accepted, and with TRUST_REQ 0 IMG_UNTRUSTED is no
longer due; or the pin falls again (R49). -/
def execImgTrustedRise (t : Nat) (level : Bool) (s : State) : Host.Outcome State Fault Refusal :=
  s.run (fun b =>
    let b := { b.at t with trustedPin := level }
    if !level then b
    else
      let b := b.modImg (fun i => { i with trustDue := false })
      if b.img.stage = 3 then b.accept else b)

/-- TRUST_TIMEOUT: IMG_TRUSTED still low 100 ms after DIGEST_READY (R417). -/
def execTrustTimeout (t : Nat) (s : State) : Host.Outcome State Fault Refusal :=
  s.run (fun b =>
    let b := b.at t
    if b.img.digestAt + 100000000 > b.now then b
    else if b.img.stage = 3 then b.refuse 0x18 0
    else if b.img.trustDue then (b.modImg (fun i => { i with trustDue := false })).report srcIMG_UNTRUSTED 0
    else b)

/-- CHIPID_LO_READ: the low half, with the high half latched for the next read of CFG_CHIPID_HI (R437). -/
def execChipidLoRead (s : State) : Host.Outcome State Fault Refusal :=
  s.run (fun b =>
    let b := b.restartEvent
    { b with rdata := Config.chipId.setWidth 32, chipHi := some ((Config.chipId >>> 32).setWidth 32) })

end Sys2Proof.Machine
end

