-- ==== Sys2Proof/Machine/Boundary.lean ====
section
/-! DEFINITION. What a tick boundary does to the regions: the engine's checks of its snapshot (R83, R88, R112), the output
stage (R17, R36, R41 to R44, R182, R313, R334, R517), the choice and the stages of sleep (R140 to R149), and the writes and
substitutions that wait for a boundary. -/

namespace Sys2Proof.Machine

/-! The engine's checks, on the snapshot `s` of the tick that has ended. -/

/-- The magnitude of a rational. -/
def magnitude (x : Rat) : Rat := if x < 0 then -x else x

/-- The mean duty of a phase over the tick (R83). -/
def Ph.meanDuty (x : Ph) : Rat := (x.dutySum : Rat) / (x.dutyN : Rat)

/-- The model current of a phase in the snapshot, in A (R83). -/
def Block.modelCurrent (s : Block) (n p : Nat) : Rat :=
  iModel (s.P p).meanDuty (s.vin (quadOf n)) (s.fld REG_VSENSE_VOUT n) (s.P p).rPath

/-- The residual of a phase's model check, in A, when it fails the check (R83). -/
def Block.modelFails (s : Block) (n p : Nat) : Option Rat :=
  let m := s.modelCurrent n p
  let r := magnitude (((s.P p).hist.headD 0 : Int) / (131072 : Rat) - m)
  if (s.P p).dutyN != 0 && decide (r > max (1 / 2) (magnitude m / 4)) then some r else none

/-- The observer's inductor-current state of region `n`, in A: state 1 of the standard program, in persistent row 1 (R233); none
where the row holds no number. DEDUCED, log 24. -/
def Block.observerIL (b : Block) (n : Nat) : Option Rat :=
  (fmtC18.read (laneOf (b.eng.memRow 1 (n / 64) 1) 18 (n % 64))).map (fun x => (x : Rat) / (2 ^ fmtC18.scale : Nat))

/-- The total check of region `n` fails: the sum of its sensed currents differs by more than 1.0 A from the observer's state
(R83). -/
def Block.totalFails (b s : Block) (n : Nat) : Bool :=
  let sum := ((List.range 4).map (s.rowCurrent n)).sum
  match b.observerIL n with
  | some x => decide (magnitude ((sum : Rat) / 131072 - x) > 1)
  | none => Config.totalOpen sum

/-- The model check of region `n`; of the phases that fail it in 8 ticks running, with the total check failing in the same
ticks, the one with the largest mean residual is marked SENSE_FAIL, the first of equals, and the others count anew (R83).
DEDUCED, log 24; DESIGN CHOICE, log 28. -/
def Block.checkModel (b s : Block) (n : Nat) : Block :=
  let total := b.totalFails s n
  let ps := (s.mapped n).filter (fun p => s.cond p = cSwitching)
  let b := b.each ps (fun b p => b.modP p (fun x =>
    match s.modelFails n p with
    | some r => if total then { x with modelRun := x.modelRun + 1, modelSum := x.modelSum + r } else { x with modelRun := 0, modelSum := 0 }
    | none => { x with modelRun := 0, modelSum := 0 }))
  let b := b.each ((s.mapped n).filter (fun p => !ps.contains p)) (fun b p => b.modP p (fun x => { x with modelRun := 0, modelSum := 0 }))
  let due := ps.filter (fun p => (b.P p).modelRun ≥ 8)
  let worst := due.foldl (fun (m : Option Nat) p => match m with
    | some q => if (b.P p).modelSum > (b.P q).modelSum then some p else some q
    | none => some p) none
  let b := b.each due (fun b p => b.modP p (fun x => { x with modelRun := 0, modelSum := 0 }))
  match worst with
  | some p => if b.cond p = cSwitching then b.phaseFault p srcSENSE_FAIL else b
  | none => b

/-- Samples in the 1 s of the wear filters (R88). -/
def Block.wearSamples (b : Block) : Nat := 1000000000 / b.tickNs

/-- A wear mark that was cleared is judged again after the next filter interval of 1 s (R388). -/
def Block.wearDue (b : Block) (cleared : Option Nat) : Bool :=
  match cleared with
  | some t => decide (t + 1000000000 ≤ b.now)
  | none => true

/-- The path resistance of a phase that switches at 1 A or more is estimated and filtered, and WEAR_RON marked (R88, R89,
R101). DESIGN CHOICE, log 12. -/
def Block.wearPath (b s : Block) (n p : Nat) : Block :=
  let i := (s.P p).hist.headD 0
  if i < 131072 || (s.P p).dutyN = 0 then b
  else
    let est := ((s.P p).meanDuty * (s.vin (quadOf n) : Nat) - (256 * s.fld REG_VSENSE_VOUT n : Nat)) * 32 * 131072 / i
    let b := b.modP p (fun x => { x with rPath := max 0 (filterStep s.wearSamples x.rPath est) })
    let x := b.P p
    if x.rTest = 0 then b
    else
      let b := b.put PH_WEAR_RON_GROWTH (clampI 0 65535 (rounded 44 (4096 * x.rPath / (x.rTest : Rat)))).toNat p
      let limit := 256 + clampN 26 128 (b.efld WV_WEAR_CFG_RON_MAX)
      if decide (256 * x.rPath > (limit * x.rTest : Nat)) && !x.faults.getLsbD 5 && b.wearDue x.ronAt then b.phaseFault p srcWEAR_RON
      else b

/-- The sense offset of a phase parked for 1 µs with ZC set is filtered, and WEAR_SENSE marked (R88). DESIGN CHOICE, log 12. -/
def Block.wearOffset (b s : Block) (p : Nat) : Block :=
  match (s.P p).parkedAt, (s.P p).last with
  | some t, some r =>
    if s.now < t + 1000 || !r.zc || s.cond p != cParked then b
    else
      let sample := ((r.code : Int) - s.fld PH_CAL_ZERO_CODE p) * (s.P p).gainT
      let b := b.modP p (fun x => { x with ofs := filterStep s.wearSamples x.ofs sample })
      let x := b.P p
      let b := b.put PH_WEAR_SENSE_OFS (report16 45 x.ofs) p
      if decide (magnitude x.ofs * 100 > (b.efld WV_WEAR_CFG_SENSE_OFS_MAX * 131072 : Nat)) && !x.faults.getLsbD 6 && b.wearDue x.ofsAt then
        b.phaseFault p srcWEAR_SENSE
      else b
  | _, _ => b

/-- A tap reading is compared with the remote reading of its tick: eight differences running of more than 25 mV, no droop
episode in progress at any, mark the connection CRACKED (R112). Suspended while the converter is in doubt (R362) or the REGION
group's reference has not settled (R354), and on local fallback. DESIGN CHOICE, log 28. -/
def Block.tapCheck (b s : Block) (n : Nat) : Block :=
  let r := s.R n
  if !r.tapNew || !b.refSettled 0 || s.bit REG_STATUS_SENSE_SRC n || r.convRun > 0 || r.convBad then b
  else
    let differs := decide (((r.tap : Int) - r.remote).natAbs > 50) && !r.tapEp
    b.modR n (fun x =>
      let run := if differs then x.tapRun + 1 else 0
      if run ≥ 8 then { x with tapRun := 0, crackDue := true } else { x with tapRun := run })

/-- The checks of a completed tick over every region and phase. DEDUCED, log 24. -/
def Block.engineChecks (b : Block) : Block :=
  let s := b.withSnap
  let b := b.each regions (fun b n => b.checkModel s n)
  let b := b.each regions (fun b n => b.each ((s.mapped n).filter (fun p => s.cond p = cSwitching)) (fun b p => b.wearPath s n p))
  let b := b.each phases (fun b p => b.wearOffset s p)
  b.each regions (fun b n => b.tapCheck s n)

/-- LOCAL_FALLBACK: a connection judged cracked moves to the local tap at the boundary (R114). -/
def Block.localFallback (b : Block) (n : Nat) : Block :=
  if !(b.R n).crackDue then b
  else
    let b := b.modR n (fun r => { r with crackDue := false, tapRun := 0, probeRun := 0 })
    if b.bit REG_STATUS_SENSE_SRC n then b
    else (((b.noteRef n).put REG_STATUS_CRACKED 1 n).put REG_STATUS_SENSE_SRC 1 n).report srcSENSE_CRACK n

/-! The output stage. -/

/-- The committed value of row `r` of an output field for region `n`, as I16 (R182). -/
def Block.out (b : Block) (f r n : Nat) : Int := signed 16 (b.eng.outCom.get (fun _ => 0) (outKey f r n))

/-- An I16 output held within a range of natural numbers. -/
def outIn (lo hi : Nat) (v : Int) : Nat := (clampI lo hi v).toNat

/-- ISSUE_LIMIT and FLOOR are held at 0: a thermal stop from its step 3 (R313), and a loss of the active phase loop until
the tick that first saw drive resumed has committed (R333, R334). DEDUCED, log 38. -/
def Block.issueHeld (b : Block) : Bool := b.thm.stopStep ≥ 3 || b.clk.forcing || b.clk.issueHold > 0

/-- The fall of a forced descent in 1/1000 code per boundary of `ns` (R145, R278, R288). DEDUCED, log 26. -/
def Block.fallMilli (b : Block) (ns : Nat) : Nat := max 1 (b.efld PWR_SLOPE_FALL) * ns

/-- Stage L1 of a descent at a commit: ISSUE_LIMIT to 0 at once, or by the fall slope when forced (Table 5-3).
DEDUCED, log 26. -/
def Block.fallIssue (b : Block) (n ns : Nat) : Nat × Nat :=
  let r := b.R n
  if !r.forced then (0, 0)
  else
    let acc := r.issueAcc + b.fallMilli ns
    (r.issue - acc / 1000, acc % 1000)

/-- ISSUE_LIMIT and FLOOR of a region at a boundary of `ns`, from the values asked for: theirs in RUN, the fall of stage L1,
and 0 elsewhere (Table 5-1); FLOOR at most ISSUE_LIMIT (R36), and 0 from step 1 of a stop (R313). DEDUCED, log 25. -/
def Block.commitThrottle (b : Block) (n ns issue floor : Nat) : Block :=
  let st := b.st n
  let l1 := st = sLeaving && (b.R n).descent = 1
  let x : Nat × Nat := if b.issueHeld then (0, 0) else if st = sRun then (issue, 0) else if l1 then b.fallIssue n ns else (0, 0)
  let fl := if (st = sRun || l1) && b.thm.stopStep = 0 then min floor x.1 else 0
  let b := (b.setThrottle n x.1 fl).modR n (fun r => { r with issueAcc := x.2 })
  if l1 && x.1 = 0 then b.modR n (fun r => { r with descent := 3 }) else b

/-- F_PERMIT of a region at a commit: the value written, raised only for a raise that was settled and quiet in the tick's
snapshot and no further than its F_REQ, which a thermal stop ignores (R41, R122, R315); only lowered in a descent (R44), and 0
outside RUN and after a loss of the active phase loop (Table 13-2). DEDUCED, log 25. -/
def Block.commitPermit (b s : Block) (n v : Nat) : Block :=
  let cur := b.fld REG_FIDX_PERMIT n
  let st := b.st n
  if b.thm.stopStep ≥ 3 || b.lossHeld then b.setPermit n 0
  else if st = sRun then
    let top := if (b.R n).grant && !b.wakeIgnored n then max cur (s.fld REG_FIDX_REQ n) else cur
    b.setPermit n (min v top)
  else if st = sLeaving && (b.R n).descent = 1 then b.setPermit n (min v cur)
  else if st = sLeaving && (b.R n).descent = 3 then b
  else b.setPermit n 0

/-- Stages L3 and L4 of a descent at a commit: F_PERMIT goes to 0; with F_CUR captured as 0 stage L4 begins, whose shed a
droop may have held (Table 5-3). DEDUCED, log 26. -/
def Block.descentStep (b : Block) (n : Nat) : Block :=
  let r := b.R n
  if b.st n != sLeaving then b
  else if r.descent = 3 then
    if b.fld REG_FIDX_PERMIT n != 0 then b.setPermit n 0
    else if b.fld REG_FIDX_CUR n = 0 then b.enterL4 n else b
  else if r.descent = 4 then (if r.depth = 3 then b.startDusk n else (b.shedRest n).finishDescent n)
  else b

/-- A descent that a wake event has met is abandoned: RUN, ready at once, the integrator at 0 (R105, R146). -/
def Block.abandonDescent (b : Block) (n : Nat) : Block :=
  if b.st n = sLeaving && (b.R n).abandon then
    (b.setSt n sRun).modR n (fun r =>
      { r with descent := 0, depth := 0, forced := false, abandon := false, capDark := false, integ := 0 })
  else b

/-- The engine's add and shed decisions for a region: adds act at once; sheds, unless R17 holds them, with each phase's next
switching period (R16, R17, R182). -/
def Block.commitPhases (b : Block) (n bits : Nat) : Block :=
  let b := b.modR n (fun r => { r with adds := BitVec.ofNat 4 bits })
  let st := b.st n
  if st = sRun || (st = sLeaving && (b.R n).descent < 4) then
    let shed := (List.range 4).filter (fun k => bits / 2 ^ k % 2 = 0)
    let b := b.each ((List.range 4).filter (fun k => bits / 2 ^ k % 2 = 1)) (fun b k =>
      match b.serving (4 * n + k) with | some p => (b.switchOn p).modP p (fun x => { x with shedDue := false }) | none => b)
    let due := shed.filterMap (fun k => match b.serving (4 * n + k) with
      | some p => if b.cond p = cSwitching || b.cond p = cBlind then some p else none
      | none => none)
    let held := b.shedHeld n && !due.isEmpty
    (b.put REG_STATUS_SHED_HELD (if held then 1 else 0) n).each due (fun b p => b.shedLater p (!held))
  else if st = sLeaving then b
  else b.put REG_STATUS_SHED_HELD 0 n

/-- TRIM of a region's four positions, and the end of the loss share at the rebalancing commit: the first whose TRIM comes
from a snapshot that shows a phase in SAFE (R104, R182, R243). -/
def Block.commitTrim (b s : Block) (n : Nat) (written : Bool) : Block :=
  let b := b.each (List.range 4) (fun b k => match b.serving (4 * n + k) with
    | some p => b.modP p (fun x => { x with trim := clampI (-16) 15 (b.out 2 k n) })
    | none => b)
  if written && (s.mapped n).any (fun p => s.cond p = cSafe) then b.modR n (fun r => { r with loss := r.loss - (s.R n).loss }) else b

/-- The telemetry field of a region: REG_SELECT, REG_FCAST, and the onsets of a conflict (R238, R259 to R261).
DEDUCED, log 25. -/
def Block.commitTelem (b : Block) (n : Nat) : Block :=
  let w (r : Nat) : Nat := unsigned 16 (b.out 5 r n)
  let rose (f : Fld) (bit : Nat) : Bool := w 0 / 2 ^ bit % 2 = 1 && !b.bit f n
  let v := rose REG_SELECT_VCAP 0
  let f := rose REG_SELECT_VFLOOR 1
  let b := b.when v (fun b => b.incr REG_CONFLICT_VCAP_CNT n)
  let b := b.when f (fun b => b.incr REG_CONFLICT_VFLOOR_CNT n)
  let b := ((b.put REG_SELECT_ADAPT (w 1) n).put REG_SELECT_PWIN (w 0 / 32) n).put REG_SELECT_IWIN (w 0 / 4) n
  let b := (b.put REG_SELECT_VFLOOR (w 0 / 2) n).put REG_SELECT_VCAP (w 0) n
  (b.put REG_FCAST_F4 (w 3) n).put REG_FCAST_F1 (w 2) n

/-- The output stage for one region at a boundary; `wrote` are the fields of the tick that completed, none when it was
aborted (R182, Table 6-9). DEDUCED, log 25. -/
def Block.outputRegion (b s : Block) (wrote : List Nat) (n : Nat) : Block :=
  let b := (b.abandonDescent n).readMin n
  let b := b.put REG_VSET_TARGET (outIn 800 2100 (b.out 0 0 n)) n
  let b := b.when (wrote.contains 0) (fun b => b.modR n (fun r => { r with tgtReq := s.fld REG_FIDX_REQ n }))
  let b := b.modR n (fun r => { r with target0 := outIn 0 32767 (b.out 6 0 n) })
  let b := (b.commitPhases n (unsigned 4 (b.out 1 0 n))).commitTrim s n (wrote.contains 2)
  let v := if wrote.contains 4 then outIn 0 63 (b.out 4 0 n) else b.fld REG_FIDX_PERMIT n
  let b := ((b.descentStep n).commitPermit s n v).dropSetPoint n
  let b := b.commitThrottle n b.tickNs (outIn 0 255 (b.out 3 0 n)) (outIn 0 255 (b.out 3 1 n))
  b.when (wrote.contains 5) (fun b => b.commitTelem n)

/-- The commit of the first tick whose snapshot showed drive resumed ends the hold of ISSUE_LIMIT after a loss of the active phase
loop (R334). -/
def Block.holdStep (b : Block) (completed : Bool) : Block :=
  if completed && b.clk.issueHold = 1 then b.modClk (fun c => { c with issueHold := 0 }) else b

/-- A snapshot shows drive resumed (R334). -/
def Block.holdSeen (b : Block) : Block :=
  if b.clk.forcing then b else b.modClk (fun c => { c with issueHold := min 1 c.issueHold })

/-- A raise of region `n` at a boundary: its timer starts at the first commit of a target computed for an index above
F_PERMIT and ends with it (R123); F_REQ is ignored in a thermal stop (R315). DEDUCED, log 27. -/
def Block.raiseTimer (b : Block) (n : Nat) : Block :=
  let permit := b.fld REG_FIDX_PERMIT n
  let raising := b.st n = sRun && !b.wakeIgnored n && b.fld REG_FIDX_REQ n > permit && (b.R n).tgtReq > permit
  let b := b.when raising (fun b => b.deferProbe n)
  b.modR n (fun r => { r with raiseAt := if raising then (if r.raiseAt.isSome then r.raiseAt else some b.now) else none })

/-- REG_FIDX.SEQ and RAISE_WAIT (Tables 4-10, 4-15). DEDUCED, log 27. -/
def Block.fidxStage (b : Block) (n : Nat) : Block :=
  let there := b.fld REG_VSET_APPLIED n = b.fld REG_VSET_TARGET n
  let st := b.st n
  let lowering := (st = sRun && b.fld REG_VSET_APPLIED n > b.fld REG_VSET_TARGET n) ||
    ((st = sRun || st = sLeaving) && b.fld REG_FIDX_CUR n > b.fld REG_FIDX_PERMIT n)
  let seq := if (b.R n).raiseAt.isSome then (if there then 2 else 1) else if lowering then 3 else 0
  (b.put REG_FIDX_SEQ seq n).put REG_STATUS_RAISE_WAIT (if seq = 2 then 1 else 0) n

/-- The raise of region `n` is settled and quiet at the boundary of a starting tick (R122). DEDUCED, log 27, 30. -/
def Block.judgeRaise (b : Block) (n : Nat) : Block :=
  let r := b.R n
  let ok := r.raiseAt.isSome && r.tgtReq = b.fld REG_FIDX_REQ n && b.fld REG_VSET_APPLIED n = b.fld REG_VSET_TARGET n &&
    r.settled && !b.shedHeld n
  b.modR n (fun r => { r with grant := ok })

/-! What waits for a boundary. -/

/-- A LATENCY hint's limit comes into force, over a host write of the same interval (R137). DEDUCED, log 30. -/
def Block.takeWake (b : Block) (g : Nat) : Block :=
  match (b.H g).wake with
  | some w => (b.put REG_GLAT_WAKE w g).modH g (fun x => { x with wake := none })
  | none => b

/-- The limit of a region in units of 100 ns: that of its group, 0 outside every group (R11, R137). -/
def Block.limitOf (b : Block) (n : Nat) : Nat :=
  match b.groupOf n with
  | some g => b.efld REG_GLAT_WAKE g
  | none => 0

/-- The W1C bits of chapter 5 written 1 since the last boundary clear (R161). -/
def Block.takeClears (b : Block) : Block :=
  b.clearDue.foldl (fun b e => match findReg e.1 with
    | some d => if clearsLater e.1 then b.setReg e.1 (b.reg e.1 &&& ~~~(e.2 &&& d.w1c)) else b
    | none => b) { b with clearDue := [] }

/-- Every register write that waits for the boundary comes into force; a region whose group or limit changes is judged against
its new limit, but at start-up, when every region soft-starts; the ceiling of a region on local fallback holds the reference it had
before (R92, R108, R125, R137, R160, R161). DEDUCED, log 30. -/
def Block.takeWrites (b : Block) (startUp : Bool) : Block :=
  let limit (b : Block) (n : Nat) : Option Nat × Nat := (b.groupOf n, b.limitOf n)
  let before := regions.map (limit b)
  let b := b.each (regions.filter (fun n => b.bit REG_STATUS_SENSE_SRC n && b.efld REG_SENSE_CFG_FB_OFS n != b.fld REG_SENSE_CFG_FB_OFS n))
    Block.noteRef
  let b := (b.each groups Block.takeWake).takeClears.applyWrites
  if startUp then b
  else b.each regions (fun b n => if before.getD n (none, 0) = limit b n then b else b.limitWake n (b.limitOf n))

/-- Spares that waited for the boundary stand in or are mapped, and swap-ins whose region is back run again (R86, R87,
R361, R394). -/
def Block.substitute (b : Block) : Block :=
  let mapped := weaves.any (fun w => (b.W w).run.isSome && b.fld WV_SWAP_STAGE w = stMapWait)
  let b := b.each weaves (fun b w => ((b.converterStandIn w).mapSwap w).resumeSwaps w)
  let b := b.redirectCopied
  (b.each regions Block.localFallback).modEng (fun e => { e with mapStall := e.mapStall || mapped })

/-- CAPACITY_DARK: in-service capacity with that of a calibrating spare below IDLE_MIN takes the region dark: by a descent, by
Dusk, by a reversal of its Dawn, or at once where no segment is closed (R149). While a loss of the active phase loop holds
every phase in SAFE, and in a thermal stop, nothing is judged. DEDUCED, log 29. -/
def Block.capacityDark (b : Block) (n : Nat) : Block :=
  let st := b.st n
  if b.clk.forcing || b.thm.stopStep != 0 || b.capacity n + b.calibratingCapacity n ≥ b.efld REG_PCTL_IDLE_MIN n then b
  else if st = sRun then (b.startDescent n 3 false).modR n (fun r => { r with capDark := true })
  else if st = sLeaving then b.modR n (fun r => { r with capDark := true, depth := 3, forced := false, abandon := false })
  else if st = sDoze || st = sNap || st = sWaking then (b.startDusk n).modR n (fun r => { r with capDark := true, wakeAt := none })
  else if st = sDusk && !(b.R n).resetDusk then b.modR n (fun r => { r with capDark := true })
  else if st = sDawn && (topSegment (b.R n).hdrEn).isSome then
    let b := b.modR n (fun r => { r with capDark := true, toPrimed := false, wakeAt := none })
    if (b.R n).resetDusk then b else b.unwind n
  else if st = sSoftstart || st = sPrimed || st = sDawn && !(b.R n).resetDusk then
    (b.toFaulted n causeCapacity false).report srcCAPACITY n
  else b

/-- The deepest depth a limit allows a group, by its region that allows the least (R165). DEDUCED, log 30. -/
def Block.groupDepth (b : Block) (g : Nat) : Nat :=
  let w := b.efld REG_GLAT_WAKE g
  let base := if w ≥ 400 then 3 else if w ≥ 40 then 2 else if w ≥ 4 then 1 else 0
  (b.groupRegions g).foldl (fun d n => min d (b.deepest n w false)) base

/-- DEPTH_CHOICE: the deepest state each region's limit allows; with the whole block in DOZE or deeper by that choice, again
with the latencies of stopped clocks (R140). DEDUCED, log 30. -/
def Block.depthChoice (b : Block) : Block :=
  let deep (n : Nat) : Bool := if b.st n = sRun then b.deepest n (b.limitOf n) false > 0 else dozeOrDeeper (b.st n)
  let col := regions.all deep
  let ds := regions.map (fun n => b.deepest n (b.limitOf n) col)
  let b := b.each regions (fun b n => b.put REG_PSTATE_DEPTH (ds.getD n 0) n)
  let b := b.each groups (fun b g => b.put REG_GLAT_DEPTH (b.groupDepth g) g)
  b.modClk (fun c => { c with stoppedCol := col })

/-- SLEEP_ENTRY: an idle region of a group with AUTO descends to its chosen depth (R143). DEDUCED, log 30. -/
def Block.sleepEntry (b : Block) (n : Nat) : Block :=
  match b.groupOf n with
  | none => b
  | some g =>
    let idle := b.efld REG_GLAT_AUTO g = 1 && (b.H g).tag = 0 && (b.R n).zeroFrames ≥ max 1 (b.efld REG_GLAT_IDLE_WIN g) &&
      (b.groupRegions g).all (fun m => (b.R m).exitAt.isNone)
    let depth := b.fld REG_PSTATE_DEPTH n
    if b.st n = sRun && idle && depth > 0 && !b.wakeIgnored n then b.startDescent n depth false else b

/-- The base phase of a region that rests on it alone gives place to the next mapped phase when it no longer switches (R147).
DEDUCED, log 30. While no tick runs, when R147's one tick does not pass, it does so at the first boundary: DESIGN CHOICE, log 78. -/
def Block.keepBase (b : Block) (n : Nat) : Block :=
  if [sDoze, sNap, sPrimed, sSoftstart].contains (b.st n) && !b.clk.forcing then b.onlyBase n else b

/-- A region that waits in PRIMED with a kept wake, or outside every group, begins its Dawn (R159, R160). DEDUCED, log 33. -/
def Block.keptDawn (b : Block) (n : Nat) : Block :=
  if b.st n = sPrimed && !b.wakeIgnored n && ((b.R n).keptWake || (b.groupOf n).isNone) then
    let lat := b.exitLatency n sPrimed b.clk.stoppedCol
    (b.modR n (fun r => if r.wakeAt.isSome then { r with exitAt := none }
      else { r with wakeAt := some b.now, wakeLat := lat, exitAt := none })).startDawn n 0
  else b

/-- The first boundary after INIT: at start-up every region that is not DARK-FAULTED soft-starts; after a block warm reset the
kept wakes go on (R159, R160). -/
def Block.firstRegion (b : Block) (n : Nat) : Block :=
  if b.flt.step = 0 then (if b.st n = sDark && !b.wakeIgnored n then b.startSoft n else b) else b.keptDawn n

/-- The hardware draws of a committed tick, latched: spread dither, and plait dither, bit (n mod 64) of draw 1 + n / 64 for region n
(R476). -/
def Block.latchDraws (b : Block) : Block :=
  let z (u : Nat) : Nat := (prngDraw b.key b.tickno u).toNat
  b.modClk (fun c => { c with sscDraw := BitVec.ofNat 5 (z 0), plaitDraw := BitVec.ofNat 256 (packNat 64 ((List.range 4).map (fun k => z (1 + k)))) })

end Sys2Proof.Machine
end

