-- ==== Sys2Proof/Machine/Tick.lean ====
section
/-! DEFINITION. The tick (R20 to R22, R186 to R197): the end of a tick with its commit or abort, the boundary's other work,
the stop of the engine clock, the snapshot and the start of the next tick; INIT; and the commits of minimum safe mode
(R419). -/

namespace Sys2Proof.Machine

/-! The end of a tick. -/

/-- The last cycle of a tick (R188). -/
def Block.lastCycle (b : Block) : Nat := b.tickNs * 6 / 5 - 1

/-- TWAIT has not issued by the last cycle (R188). -/
def Block.tickLate (b : Block) : Bool :=
  match b.eng.twaitAt with
  | some c => decide (c > b.lastCycle)
  | none => true

/-- The tick read an uncorrectable word, met an array mismatch, or is the one in which A4 tests itself (R188, R194). -/
def Block.tickSpoiled (b : Block) : Bool := b.eng.ueMark || b.eng.mismatch || b.eng.suspect.isSome

/-- The tick is aborted (R188). -/
def Block.tickAborts (b : Block) : Bool := b.tickLate || b.tickSpoiled

/-- The CAUSE of an abort (Table 16-5); of an uncorrectable word and a mismatch together, either. DESIGN CHOICE, log 9. -/
def Block.abortCause (b : Block) : Nat :=
  if b.eng.ueMark then (if b.eng.mismatch && Config.roundUp 46 (b.tickno : Int) 1 then 2 else 1)
  else if b.tickSpoiled then 2 else 0

/-- A deadline miss is reported and counted; in deterministic mode DET_BROKEN (R189). DEDUCED, log 22. -/
def Block.missDeadline (b : Block) : Block :=
  let b := (b.incr ENG_DEADLINE_MISS_COUNT).report srcENG_DEADLINE 0
  if b.det then b.report srcDET_BROKEN 0 else b

/-- ENG_CYCLES and ENG_STALL of the tick that ends (R205, R206). DEDUCED, log 24. -/
def Block.noteCycles (b : Block) : Block :=
  let b := if b.tickLate then b else
    let c := b.eng.twaitAt.getD 0
    (b.put ENG_CYCLES_LAST c).put ENG_CYCLES_MAX (max c (b.fld ENG_CYCLES_MAX))
  let n := min 255 b.eng.stalls
  (b.put ENG_STALL_LAST n).put ENG_STALL_MAX (max n (b.fld ENG_STALL_MAX))

/-- The end of A4's self-test: A4 stands in for the array under test, or is marked failed (R194). DEDUCED, log 22. -/
def Block.arrayTested (b : Block) (q : Nat) (a4Pass : Bool) : Block :=
  let b := b.modEng (fun e => { e with suspect := none })
  if a4Pass then
    ((((b.put (arrayState q) 2).put (arrayState 4) 0).put ENG_ARRAY_A4_SERVES q).logArray q).report srcENG_ARRAY_FAIL q
  else ((b.put (arrayState 4) 2).logArray 4).report srcENG_ARRAY_FAIL 4

/-- An aborted tick commits nothing (R188); after a mismatch the next tick is A4's self-test (R194). DEDUCED, log 22. -/
def Block.abortTick (b : Block) (a4Pass : Bool) : Block :=
  let test := b.eng.suspect
  let mismatch := b.eng.mismatch
  let b := (b.modEng Eng.dropTick).countAbort
  match test with
  | some q => b.arrayTested q a4Pass
  | none => if mismatch then b.modEng (fun e => { e with suspect := some (b.tickno % 4) }) else b

/-- The engine's state and outputs with free values: rows 0..653 of every bank of state memory, S0..S7 as TICK finds them, the slice
flags, and every output field (Table 13-4). DESIGN CHOICE, log 7. -/
def Eng.freed (e : Eng) (k : Nat) : Eng :=
  let w (i : Nat) : Nat := (Config.freeAt k i).toNat
  let sm := SMap.tab (fun _ => 0) (fun i => if i % 8192 < 5886 then Config.freeAt k i else e.word 1 i) (List.range 32768)
  let outs := SMap.tab (fun _ => 0) (fun i => if i / 256 % 4 < fieldRows (i / 1024) then w (32768 + i) % 65536 else 0) (List.range 7168)
  let saved := SMap.tab (fun _ => 0) (fun i => if i % 16 < 8 then w (40000 + i) % 2 ^ 32 else 0) (List.range 64)
  { e with sm := sm, outCom := outs, outBuf := outs, wrote := List.range 7, saved := saved
           inv := BitVec.ofNat 4 (w 41000), ovf := BitVec.ofNat 4 (w 41001) }

/-- The first commit after a replay during which a register was written leaves the engine's state and outputs unpredictable (R391,
Table 13-4). DESIGN CHOICE, log 7. -/
def Block.spoilCommit (b : Block) : Block :=
  if !b.trc.spoiled || b.bit TRC_REPLAY_BUSY then b
  else { b with eng := b.eng.freed b.freeCtr, freeCtr := b.freeCtr + 1, trc := { b.trc with spoiled := false } }

/-- A program's outputs, persistent rows and messages are committed together, and its events raised (R22, R172, R188, R191). -/
def Block.commitProgram (b : Block) : Block :=
  let events := b.eng.events
  let b := (b.modEng (fun e =>
    let e := e.commitRows
    { e with outCom := e.outBuf, sendQ := e.sendQ ++ e.sends, sends := [], events := [], twaitAt := none })).spoilCommit
  events.foldl (fun b ev => b.raise srcENG_PROG_EVENT ev) b

/-- A completed tick commits; the first one after a block warm reset ends it (R22, Table 13-7). -/
def Block.commitTick (b : Block) : Block :=
  let b := b.put TRC_SIG_SIG b.eng.signature.toNat
  let b := (b.commitProgram.modEng (fun e => { e with aborts := 0 })).engineChecks
  let b := b.latchDraws
  if b.flt.step = 5 then ({ b with flt := { b.flt with step := 0 } } : Block).each regions Block.keptDawn else b

/-- The rest of the boundary goes on while the engine still is in the state that it was in: a fault raised on the way may have
begun a block warm reset. -/
def Block.while (b : Block) (st : Nat) (f : Block → Block) : Block := if b.fld ENG_STATUS_STATE = st then f b else b

/-- The end of a tick: judged, recorded, and committed or aborted (R22, R188, R189, R478). DEDUCED, log 24. A tick that is late and
spoiled as well counts no miss, on which R22 and R189 can be read both ways: DESIGN CHOICE, log 66. -/
def Block.endTick (b : Block) (a4Pass : Bool) : Block :=
  let aborted := b.tickAborts
  let missed := b.tickLate && !b.tickSpoiled
  let b := b.modEng (fun e => { e with cause := if aborted then b.abortCause else 0 })
  let b := b.noteCycles
  let b := (b.recordTick aborted).while eRunning (fun b => b.when missed Block.missDeadline)
  b.while eRunning (fun b => if aborted then b.abortTick a4Pass else b.commitTick)

/-- The output stage at the boundary that ends a tick or INIT: the outputs in force with their limits, those of `wrote` new
(R22, R182, R313, R461, R465). An aborted tick leaves the last ones in force. DEDUCED, log 25. -/
def Block.outputStage (b : Block) (completed : Bool) : Block :=
  let s := b.withSnap
  let wrote := b.eng.wrote
  let b := b.stopCommit.each regions (fun b n => b.outputRegion s wrote n)
  let tick := completed && b.engineRunning
  let b := ((b.modEng (fun e => { e with wrote := [] })).holdStep tick).moveSends
  let b := b.when tick Block.paceCommit
  let b := b.each regions (fun b n => (b.raiseTimer n).fidxStage n)
  let b := b.trigTick
  if b.trc.stopDue then b.endRecording else b

/-! The boundary. -/

/-- DROOP_NOW of every region follows its episodes (Table 4-10). -/
def Block.noteDroop (b : Block) : Block :=
  b.each regions (fun b n => b.put REG_STATUS_DROOP_NOW (if (b.R n).episode then 1 else 0) n)

/-- Capacity is judged, the spares and swap-ins that waited go on, and the base phases are kept (R86, R147, R149, R361). -/
def Block.phaseWork (b : Block) : Block := ((b.substitute).each regions Block.capacityDark).each regions Block.keepBase

/-- The first boundary of three-array operation: ENG_STATUS shows it, and the tick lengthens (R173, R195). -/
def Block.enterThree (b : Block) : Block :=
  if b.fld ENG_ARRAY_ORPHAN > 3 then b
  else (b.put ENG_STATUS_ARRAYS 3).put ENG_STATUS_TICKLEN (2 + b.fld ENG_STATUS_DET)

/-- What the first boundary after INIT does beside the others (R160, R195). -/
def Block.firstBoundary (b : Block) : Block :=
  let b := b.enterThree.each regions Block.firstRegion
  if b.bit TRC_CTL_HOLD_INIT then b.put ENG_CTL_HALT 1 else b

/-- What every boundary does beside the commit; `first` marks the one after INIT. A capacity change before it is judged against
the IDLE_MIN in force until then; the depths are chosen before the sleep requests that take them (R86, R92, R140, R144, R147, R149,
R160, R161, R361, R462). -/
def Block.boundaryWork (b : Block) (first : Bool) : Block :=
  let b := b.each regions Block.capacityDark
  let b := (b.takeWrites (first && b.flt.step = 0)).when first Block.firstBoundary
  b.depthChoice.takeSleeps.phaseWork.noteDroop.paceIndex

/-- The engine clock may stop (R20). DEDUCED, log 31. -/
def Block.maySleep (b : Block) : Bool :=
  regions.all (fun n => dozeOrDeeper (b.st n)) &&
  groups.all (fun g => (b.H g).count = 0 && (b.H g).wake.isNone) &&
  !b.bit ENG_MADDR_BUSY && !(b.bit TRC_CTL_EXPORT && !b.trc.mem.isEmpty)

/-- The engine clock stops after the boundary's commit (R192), and the block takes the power mode of R338. DEDUCED, log 31. -/
def Block.clockStop (b : Block) : Block :=
  let b := b.modEng (fun e => { e with clockStopped := true, restartReq := false, stopCycle := some 0, boundAt := b.now })
  ((b.put ENG_STATUS_STATE eClockStopped).modClk (fun c => { c with sleeping := true })).enterMode

/-- The boundary whose snapshot first holds a crossing is kept with it (R471). -/
def firstHeld (crossed held : Option Nat) (k : Nat) : Option Nat := if crossed.isSome && held.isNone then some k else held

/-- TICKNO counts the boundary, and what its snapshot first holds is stamped and logged (R204, R471, R481). -/
def Block.stampTick (b : Block) : Block :=
  let k := b.eng.bounds + 1
  let b := (b.setTickno (b.tickno + 1)).modEng (fun e => { e with bounds := k })
  let b := b.each groups (fun b g => b.modH g (fun h => { h with
    fcB := firstHeld h.fcAt h.fcB k, leadB := firstHeld h.leadAt h.leadB k, exB := firstHeld h.exAt h.exB k }))
  let frame := b.red.goodFrame && b.red.frameB.isNone
  let b := b.modRed (fun r => { r with frameB := if r.frameB.isNone then some k else r.frameB })
  b.closeLog frame

/-- The record of a region as a tick starts: what a tick gathers begins anew. -/
def Rgn.newTick (r : Rgn) : Rgn := { r with settled := true, convsInTick := 0, tapNew := false, epLog := [], begun := [],
                                            tickMin := 64 }

/-- What each tick gathers anew from its boundary on. -/
def Block.clearTick (b : Block) : Block :=
  let b := b.each regions (fun b n => b.modR n Rgn.newTick)
  let b := b.each phases (fun b p => b.modP p (fun x => { x with dutySum := 0, dutyN := 0 }))
  b.each groups (fun b g => b.modH g (fun h => { h with count := 0 }))

/-- The snapshot is latched and the next tick starts (R21, R173, R186, R190). -/
def Block.startTick (b : Block) : Block :=
  let b := b.when (b.bit TRC_STATUS_ARMED) (fun b => (b.put TRC_STATUS_ARMED 0).put TRC_STATUS_RECORDING 1)
  let b := b.stampTick
  let b := b.latch.holdSeen.modEng (fun e => { e with boundAt := b.now, stopCycle := none, firstDue := false })
  let b := (b.each regions Block.judgeRaise).clearTick
  let b := b.modEng (fun e => { e.startProgram .tick e.tickEntry (if e.mapStall then 2 else 0) with mapStall := false })
  b.put ENG_STATUS_STATE eRunning

/-- From the boundary's work on: a halt (R197), the stop of the clock (R192), or the next tick. The clock does not stop at the boundary
that resumes the engine from a halt or restarts its clock, on whose snapshot TICK runs (R192, R197); a recording stopped before ends at
that boundary (R486). -/
def Block.nextTick (b : Block) (first resumed : Bool) : Block :=
  let st := b.fld ENG_STATUS_STATE
  let b := b.when (resumed && b.trc.stopDue) Block.endRecording
  (b.boundaryWork first).while st (fun b =>
    if b.bit ENG_CTL_HALT then (b.modEng (fun e => { e with boundAt := b.now, stopCycle := none })).put ENG_STATUS_STATE eHalted
    else
      let b := b.each regions Block.sleepEntry
      if b.maySleep && !resumed then b.clockStop else b.startTick)

/-- TICK_BOUNDARY (R22): the tick in flight, or INIT once its TWAIT has issued, ends; a halted engine resumes when HALT is 0
(R197). `a4Pass` is the result of A4's self-test.
DESIGN CHOICE, log 32. -/
def Block.tickBoundary (b : Block) (a4Pass : Bool) : Block :=
  let st := b.fld ENG_STATUS_STATE
  if st = eRunning then
    let done := !b.tickAborts
    (b.endTick a4Pass).while eRunning (fun b => (b.outputStage done).while eRunning (fun b => b.nextTick false false))
  else if st = eInit then
    if b.eng.run = .none && b.eng.twaitAt.isSome then
      b.commitProgram.while eInit (fun b => (b.outputStage true).while eInit (fun b => b.nextTick true false))
    else b
  else if st = eHalted && !b.bit ENG_CTL_HALT && !b.bit TRC_REPLAY_BUSY then b.nextTick false true
  else b

/-- TICK_BOUNDARY (R16, R22). What the latencies of the commit add in time is left out. DESIGN CHOICE, log 58. -/
def execTickBoundary (t : Nat) (a4Pass : Bool) (s : State) : Host.Outcome State Fault Refusal :=
  s.run (fun b => (b.at t).tickBoundary a4Pass)

/-- ENGINE_CLOCK_RESTART: PLL-E is ready after a restart event, and the next boundary falls (R20, R192). A tick that a loss of
PLL-E aborted is recorded; INIT goes on where it stood (R336). -/
def Block.engineClockRestart (b : Block) : Block :=
  if b.fld ENG_STATUS_STATE != eClockStopped || !b.eng.clockStopped || !b.eng.restartReq || !b.clkReady kPLLE then b
  else
    let b := b.drainHints.modEng (fun e => { e with clockStopped := false, restartReq := false })
    let b := (b.modClk (fun c => { c with sleeping := false })).enterMode
    if b.eng.run = .init || b.eng.twaitAt.isSome then
      (b.modEng (fun e => { e with boundAt := b.now - e.stopCycle.getD 0 * 5 / 6, stopCycle := none })).put ENG_STATUS_STATE eInit
    else
      let b := if b.eng.cause = 3 then (b.recordTick true).modEng (fun e => { e with cause := 0 }) else b
      b.while eClockStopped (fun b => b.nextTick false true)

/-- ENGINE_CLOCK_RESTART (R192). -/
def execEngineClockRestart (t : Nat) (s : State) : Host.Outcome State Fault Refusal :=
  s.run (fun b => (b.at t).engineClockRestart)

/-! INIT. -/

/-- The arrays in use by those that failed: the quadrant A4 stands in for, the quadrant of a shared array, and the active
count (R194 to R196); none with fewer than three working. DEDUCED, log 23. -/
def arrayPlan (failed : List Nat) : Option (Option Nat × Option Nat × Nat) :=
  if (List.range 5).length < 3 + failed.length then none
  else match (List.range 4).filter failed.contains, failed.contains 4 with
    | [], _ => some (none, none, 4)
    | [q], false => some (some q, none, 4)
    | [q], true => some (none, some q, 3)
    | [q, r], false => some (some q, some r, 3)
    | _, _ => none

/-- The arrays marked failed in the wear log, and those whose self-test failed now (R191, R397). DEDUCED, log 23. -/
def Block.failedArrays (b : Block) (arraysPass : List Bool) : List Nat :=
  (List.range 5).filter (fun a => !arraysPass.getD a true || b.img.wear.any (fun e => e.kind = 3 && e.elem = a))

/-- ENG_ARRAY for a plan; up to the first boundary the tick is that of four arrays (R195, Tables 6-15, 6-25 and 6-26). DEDUCED, log 23. -/
def Block.setArrays (b : Block) (failed : List Nat) (plan : Option Nat × Option Nat × Nat) : Block :=
  let b := b.each (List.range 4) (fun b a => b.put (arrayState a) (if failed.contains a then 2 else 0))
  let b := b.put (arrayState 4) (if failed.contains 4 then 2 else if plan.1.isSome then 0 else 1)
  let b := (b.put ENG_ARRAY_A4_SERVES (plan.1.getD 7)).put ENG_ARRAY_ORPHAN (plan.2.1.getD 7)
  (b.put ENG_STATUS_ARRAYS 4).put ENG_STATUS_TICKLEN (b.fld ENG_STATUS_DET)

/-- The array self-test's results: every failure is logged and raised (R191, R194). DEDUCED, log 23. -/
def Block.testArrays (b : Block) (arraysPass : List Bool) : Block :=
  ((List.range 5).filter (fun a => !arraysPass.getD a true)).foldl
    (fun b a => (b.logArray a).report srcENG_ARRAY_FAIL a) b

/-- INIT starts: S0..S12, the flags and TICKNO at 0, and only its own stores pending (R173, R191, R204). -/
def Block.startInit (b : Block) : Block :=
  let b := b.setTickno 0
  let b := b.modEng (fun e => { e with inv := 0, ovf := 0, smPend := [], saved := [], outBuf := e.outCom, firstDue := true,
                                       boundAt := b.now, stopCycle := none, suspect := none, aborts := 0, cause := 0, clockStopped := false,
                                       restartReq := false })
  let b := b.modEng (fun e => e.startProgram .init e.initEntry 0)
  let b := { b with flt := { b.flt with step := if b.flt.step = 4 then 5 else b.flt.step } }
  b.put ENG_STATUS_STATE eInit

/-- With fewer than three working arrays the engine is FAILED (R196); a restart in progress ends there. DEDUCED, log 23. What
ENG_ARRAY shows then of an array that works the spec does not state; here A0..A3 read as serving and A4 as shadowing: DESIGN
CHOICE, log 74. -/
def Block.engineFailed (b : Block) (failed : List Nat) : Block :=
  let b := b.each (List.range 5) (fun b a => b.put (arrayState a) (if failed.contains a then 2 else if a = 4 then 1 else 0))
  let b := b.put ENG_STATUS_ARRAYS (5 - failed.length)
  let b := { b with flt := { b.flt with step := 0 } }
  failed.foldl (fun b a => b.report srcENG_ARRAY_FAIL a) (b.put ENG_STATUS_STATE eFailed)

/-- INIT_RUN: after the acceptance of an image the arrays are tested and INIT starts (R191). DEDUCED, log 23. -/
def Block.initRun (b : Block) (arraysPass : List Bool) : Block :=
  if !b.img.accepted || b.bit IMG_STATUS_SAFE || b.fld ENG_STATUS_STATE != eStopped || !(b.flt.step = 0 || b.flt.step = 4) ||
     !b.clkReady kPLLE || b.inReset then b
  else
    let failed := b.failedArrays arraysPass
    (b.testArrays arraysPass).while eStopped (fun b =>
      if !(b.flt.step = 0 || b.flt.step = 4) then b
      else match arrayPlan failed with
        | none => b.engineFailed failed
        | some p => (b.setArrays failed p).startInit)

/-- INIT_RUN (R191). -/
def execInitRun (t : Nat) (arraysPass : List Bool) (s : State) : Host.Outcome State Fault Refusal :=
  s.run (fun b => (b.at t).initRun arraysPass)

/-! Minimum safe mode. -/

/-- The fixed outputs of minimum safe mode for a region: every phase added, TRIM 0, ISSUE_LIMIT rising at 8 codes per µs to
64 once it is ready, FLOOR and F_PERMIT 0 (R419). The set-point of a region that F_CUR still shows above the permit is kept until
the lower F_CUR is captured (R42, R43). DEDUCED, log 57. -/
def Block.safeOutputs (b : Block) (n : Nat) : Block :=
  let b := b.abandonDescent n
  let keep := b.st n = sRun && b.fld REG_FIDX_CUR n > 0
  let b := b.put REG_VSET_TARGET (if keep then max (b.fld REG_VSET_TARGET n) (b.runTarget0 n) else b.runTarget0 n) n
  let b := b.modR n (fun r => { r with adds := 15 })
  let b := b.each (b.mapped n) (fun b p => b.modP p (fun x => { x with trim := 0 }))
  let b := if b.st n = sRun then b.allOn n else b
  (((b.setPermit n 0).dropSetPoint n).descentStep n).commitThrottle n 250 (min 64 ((b.R n).issue + 2)) 0

/-- SAFE_MODE_COMMIT: the output stage commits fixed outputs at boundaries 250 ns apart (R419). The engine is stopped, so that
register writes go on waiting (R125, R161). DEDUCED, log 57. -/
def Block.safeCommit (b : Block) : Block :=
  if !b.bit IMG_STATUS_SAFE || b.inReset then b
  else (((b.stopCommit.each regions Block.safeOutputs).holdSeen).holdStep true).phaseWork.noteDroop

/-- SAFE_MODE_COMMIT (R419). -/
def execSafeModeCommit (t : Nat) (s : State) : Host.Outcome State Fault Refusal :=
  s.run (fun b => (b.at t).safeCommit)

end Sys2Proof.Machine
end

