-- ==== Sys2Proof/Machine/Views.lean ====
section
/-! DEFINITION. What a host read returns (R4, R5, R494): the word held at an address, with the fields that report other state,
and the latched halves of R204, R282 and R437; and the transfer of a plain host access on the register port (R25). -/

namespace Sys2Proof.Machine

/-- Fields of a word set from a list. -/
def putAll (w : Word) (fs : List (Fld × Nat)) : Word := fs.foldl (fun w x => Fld.put x.1 w x.2) w

/-- A Boolean as a field's value. -/
def flag (v : Bool) : Nat := if v then 1 else 0

/-- REG_VSENSE[n] with the ceiling in force (R109), 0 before the region has had a reference (Table 4-9). -/
def Block.viewVsense (b : Block) (n : Nat) (w : Word) : Word :=
  Fld.put REG_VSENSE_CEIL w (if (b.R n).refs.isEmpty && b.fld REG_VSET_APPLIED n = 0 then 0 else b.ceiling n)

/-- The lead that remains, in 10 ns, saturated to 16 bits; the reset value before any hint with a lead (R258). What is no whole
number of 10 ns is rounded toward minus infinity, which the spec does not state: DESIGN CHOICE, log 78. -/
def Block.leadRem (b : Block) (g : Nat) : Nat :=
  match (b.H g).leadAt with
  | none => 0x8000
  | some t => unsigned 16 (clampI (-32768) 32767 ((((b.H g).lead : Int) - (b.now - t : Nat)) / 10))

/-- REG_GHINT[g], which changes at the acceptance of a hint, also of one whose crossing waits (R257, R258). DEDUCED, log 56. -/
def Block.viewGhint (b : Block) (g : Nat) : Word :=
  let b := b.hintsTaken
  let h := b.H g
  putAll 0 [(REG_GHINT_OPEN, h.openBars.length), (REG_GHINT_TAG, h.tag), (REG_GHINT_LEVEL, h.level), (REG_GHINT_LEAD_REM, b.leadRem g)]

/-- WV_POOL[w] (R98). DEDUCED, log 56. -/
def Block.viewPool (b : Block) (w : Nat) : Word :=
  let s (k : Nat) : Nat := b.spareState (1024 + 4 * w + k)
  putAll 0 [(WV_POOL_IDLE_COUNT, (b.idleSpares w).length), (WV_POOL_SP3, s 3), (WV_POOL_SP2, s 2), (WV_POOL_SP1, s 1), (WV_POOL_SP0, s 0)]

/-- WV_SWAP[w]: the queue's length, and the target of the running swap-in (R99). -/
def Block.viewSwap (b : Block) (w : Nat) (x : Word) : Word :=
  let x := Fld.put WV_SWAP_QUEUED x (b.W w).queue.length
  match b.swapTarget w with
  | some l => Fld.put WV_SWAP_LPOS x l
  | none => x

/-- FLT_STATUS (R401). DEDUCED, log 56. -/
def Block.viewFlt (b : Block) (w : Word) : Word :=
  putAll w [(FLT_STATUS_FAULT_PIN, flag b.faultNLow), (FLT_STATUS_S_PEND, flag (b.flt.insts.any (fun e => isClassS e.1))),
    (FLT_STATUS_REBUILD, flag (b.flt.step = 1)), (FLT_STATUS_PEND_COUNT, b.pendingList.length),
    (FLT_STATUS_FIRST_SRC, b.flt.first), (FLT_STATUS_LAST_SRC, b.flt.latest)]

/-- FLT_PEND[j] (R404). -/
def Block.viewPend (b : Block) (j : Nat) : Word :=
  BitVec.ofNat 32 (packNat 1 ((List.range 32).map (fun i => flag (b.pendingSrc (32 * j + i)))))

/-- FLT_LOGDATA[i] of the record that FLT_LOGSEL selects; zeros where there is none (R406). -/
def Block.viewLog (b : Block) (i : Nat) : Word :=
  match b.flt.log[b.fld FLT_LOGSEL_IDX]? with
  | none => 0
  | some r =>
    if i = 0 then putAll 0 [(FLT_LOGDATA0_VALID, 1), (FLT_LOGDATA0_SRC, r.src), (FLT_LOGDATA0_INDEX, r.index)]
    else if i = 1 then BitVec.ofNat 32 r.timeUs else BitVec.ofNat 32 r.tickLo

/-- IMG_JRNL: the kinds pending, those of a running commit among them (R426, R442). -/
def Block.viewJrnl (b : Block) (w : Word) : Word :=
  Fld.put IMG_JRNL_PEND w (b.img.pend ||| (b.img.commit.map (·.kinds)).getD 0).toNat

/-- ADC_CAL_CTL: calibration results that are not in flash yet await the flash-write window (R365, Table 12-7). -/
def Block.viewCal (b : Block) (w : Word) : Word :=
  Fld.put ADC_CAL_CTL_JOURNAL_PEND w (flag (b.adc.journalDue && b.adc.journalWait))

/-- IMG_AUTHDATA: the bytes of AUTH that IMG_AUTHSEL selects, 0 beyond its end (R441). -/
def Block.viewAuth (b : Block) : Word := BitVec.ofNat 32 (leNat ((b.img.auth.drop (4 * b.fld IMG_AUTHSEL_WORD)).take 4))

/-- HOOP_STATUS: the state of R453 and the bypass pin. DEDUCED, log 56. -/
def Block.viewHoop (b : Block) (w : Word) : Word :=
  putAll w [(HOOP_STATUS_STATE, b.hoopState), (HOOP_STATUS_BYP_OPEN, flag b.hoop.bypOpen)]

/-- HOOP_SHARE: the share in force, and the turns since its BUDGET (R460). -/
def Block.viewShare (b : Block) (w : Word) : Word :=
  let age := match b.hoop.budget with | some (_, t) => min 15 ((b.now - t) / max 1 b.turn) | none => 0
  putAll w [(HOOP_SHARE_AGE, age), (HOOP_SHARE_SHARE, min b.shareW 4095)]

/-- HOOP_MEMBER[i]: a CAP of it within 13 turns (Table 15-17). -/
def Block.viewMember (b : Block) (i : Nat) (w : Word) : Word :=
  let heard := match (b.peer i).capAt with | some t => decide (b.now ≤ t + 13 * b.turn) | none => false
  Fld.put HOOP_MEMBER_HEARD w (flag heard)

/-- The address of a HI half that a read of its LO half latches (R282). -/
def energyHalf (a : Nat) : Bool := a % 8 = 4 && (a = 0x20024 || a = 0x2002C || (0x22000 ≤ a && a ≤ 0x229FC))

/-- What a read of an aligned address returns (R4, R5). Write-only fields read 0. DEDUCED, log 56. -/
def Block.hostRead (b : Block) (a : Nat) : Word :=
  let w := match findReg a with | some d => b.reg a &&& ~~~d.wo | none => 0
  let at' (f : Fld) : Nat := (a - f.base) / 4
  if inArray REG_VSENSE_CEIL.base 256 a then b.viewVsense (at' REG_VSENSE_CEIL) w
  else if inArray REG_GHINT_OPEN.base 32 a then b.viewGhint (at' REG_GHINT_OPEN)
  else if inArray WV_POOL_SP0.base 16 a then b.viewPool (at' WV_POOL_SP0)
  else if inArray WV_SWAP_REQ.base 16 a then b.viewSwap (at' WV_SWAP_REQ) w
  else if a = FLT_STATUS_FAULT_PIN.base then b.viewFlt w
  else if inArray FLT_PEND_PEND.base 4 a then b.viewPend (at' FLT_PEND_PEND)
  else if inArray FLT_LOGDATA0_VALID.base 3 a then b.viewLog (at' FLT_LOGDATA0_VALID)
  else if a = IMG_JRNL_PEND.base then b.viewJrnl w
  else if a = ADC_CAL_CTL_POINT.base then b.viewCal w
  else if a = IMG_AUTHDATA_DATA.base then b.viewAuth
  else if a = HOOP_STATUS_STATE.base then b.viewHoop w
  else if a = HOOP_SHARE_SHARE.base then b.viewShare w
  else if inArray HOOP_MEMBER_HEARD.base 64 a then b.viewMember (at' HOOP_MEMBER_HEARD) w
  else if inArray ENG_MDATA_DATA.base 4 a && b.eng.noWord then 0
  else if a = TRC_FLAGS_SLICE_FLAGS.base then BitVec.ofNat 32 b.eng.sliceFlags
  else if a = ENG_TICKNO_HI_VAL.base then b.tickHi
  else if a = CFG_CHIPID_HI_ID_HI.base then b.chipHi.getD ((Config.chipId >>> 32).setWidth 32)
  else if energyHalf a then (b.energyHi.get (fun _ => none) a).getD w
  else if a = CFG_STRAP_TRUSTED.base then Fld.put CFG_STRAP_TRUSTED w (flag b.trustedPin)
  else w

/-- A read transferred on the register port (R25): of a LO half with its latch, of an unaligned address with unpredictable
data (Table 13-4), else of the word of R4. A register access restarts a stopped engine clock (R20). DESIGN CHOICE, log 7. -/
def Block.portRead (b : Block) (addr : Nat) : Block :=
  let b := b.restartEvent
  if addr % 4 != 0 then { b.draw.2 with rdata := b.draw.1 }
  else
    let b := { b with rdata := b.hostRead addr }
    if addr = ENG_TICKNO_LO_VAL.base then { b with tickHi := b.reg ENG_TICKNO_HI_VAL.base }
    else if energyHalf (addr + 4) then { b with energyHi := b.energyHi.set (fun _ => none) (addr + 4) (some (b.reg (addr + 4))) }
    else b

/-- HOST_REGISTER_WRITE: a word is transferred on the register port, with HRP_WE high a write that takes effect as its chapter
states, with HRP_WE low a read (R25, R27). The table has no row for a plain read. DEDUCED, log 62. -/
def execHostRegisterWrite (t addr : Nat) (data : Word) (we : Bool) (s : State) : Host.Outcome State Fault Refusal :=
  s.run (fun b =>
    let b := b.at t
    if !we then b.portRead addr
    else if addr % 4 = 0 then b.hostWrite addr data (fun b d => b.applyWord addr d) else b.unalignedWrite addr data)

end Sys2Proof.Machine
end

