-- ==== Sys2Proof/Machine/Dispatch.lean ====
section
/-! DEFINITION. The meaning of every command, one arm for each row of the table. -/

namespace Sys2Proof.Machine

def exec (i : Instr) (s : State) : Host.Outcome State Fault Refusal :=
  match i with
  | .hostRegisterWrite t addr data we => Sys2Proof.Machine.execHostRegisterWrite t addr data we s
  | .ticknoLoRead => Sys2Proof.Machine.execTicknoLoRead s
  | .chipidLoRead => Sys2Proof.Machine.execChipidLoRead s
  | .energyLoRead addr => Sys2Proof.Machine.execEnergyLoRead addr s
  | .engHalt t => Sys2Proof.Machine.execEngHalt t s
  | .engResume t => Sys2Proof.Machine.execEngResume t s
  | .engMemRead data => Sys2Proof.Machine.execEngMemRead data s
  | .engMemReadDone ecc collide => Sys2Proof.Machine.execEngMemReadDone ecc collide s
  | .engMemWrite data => Sys2Proof.Machine.execEngMemWrite data s
  | .swapRequest t w data => Sys2Proof.Machine.execSwapRequest t w data s
  | .groupSleepRequest t g data => Sys2Proof.Machine.execGroupSleepRequest t g data s
  | .groupWakeRequest t g data => Sys2Proof.Machine.execGroupWakeRequest t g data s
  | .phSwap data => Sys2Proof.Machine.execPhSwap data s
  | .svcSwap data => Sys2Proof.Machine.execSvcSwap data s
  | .psyncEnable data => Sys2Proof.Machine.execPsyncEnable data s
  | .xb10kWrite data => Sys2Proof.Machine.execXb10kWrite data s
  | .adcRefWrite data => Sys2Proof.Machine.execAdcRefWrite data s
  | .calZeroPoint data => Sys2Proof.Machine.execCalZeroPoint data s
  | .calFullPoint data => Sys2Proof.Machine.execCalFullPoint data s
  | .calPointDone means => Sys2Proof.Machine.execCalPointDone means s
  | .rcDataWrite data => Sys2Proof.Machine.execRcDataWrite data s
  | .rcCommit data => Sys2Proof.Machine.execRcCommit data s
  | .holdDarkWrite t data => Sys2Proof.Machine.execHoldDarkWrite t data s
  | .pmbHostTransfer data => Sys2Proof.Machine.execPmbHostTransfer data s
  | .trcOneshot data => Sys2Proof.Machine.execTrcOneshot data s
  | .trcRing data => Sys2Proof.Machine.execTrcRing data s
  | .trcModeOff data => Sys2Proof.Machine.execTrcModeOff data s
  | .trcStop data => Sys2Proof.Machine.execTrcStop data s
  | .trcReplayStart data => Sys2Proof.Machine.execTrcReplayStart data s
  | .trcTickset data => Sys2Proof.Machine.execTrcTickset data s
  | .trcFlagsWrite data => Sys2Proof.Machine.execTrcFlagsWrite data s
  | .hoopLeave t data => Sys2Proof.Machine.execHoopLeave t data s
  | .hoopEntWrite data => Sys2Proof.Machine.execHoopEntWrite data s
  | .slowCapLimitWrite t data => Sys2Proof.Machine.execSlowCapLimitWrite t data s
  | .fltClear t data => Sys2Proof.Machine.execFltClear t data s
  | .flagW1cClear t addr data => Sys2Proof.Machine.execFlagW1cClear t addr data s
  | .thmStopClear t data => Sys2Proof.Machine.execThmStopClear t data s
  | .breset t data => Sys2Proof.Machine.execBreset t data s
  | .forecast t h => Sys2Proof.Machine.execForecast t h s
  | .barrierEnter t h => Sys2Proof.Machine.execBarrierEnter t h s
  | .barrierExit t h => Sys2Proof.Machine.execBarrierExit t h s
  | .phaseTag t h => Sys2Proof.Machine.execPhaseTag t h s
  | .latency t h => Sys2Proof.Machine.execLatency t h s
  | .hintReservedType t h => Sys2Proof.Machine.execHintReservedType t h s
  | .actFrameComplete t beats => Sys2Proof.Machine.execActFrameComplete t beats s
  | .actStaleTimeout t => Sys2Proof.Machine.execActStaleTimeout t s
  | .heldCounterRun t => Sys2Proof.Machine.execHeldCounterRun t s
  | .fTglCapture t n freq fcur => Sys2Proof.Machine.execFTglCapture t n freq fcur s
  | .fidxLateTimeout t n => Sys2Proof.Machine.execFidxLateTimeout t n s
  | .tickBoundary t a4Pass => Sys2Proof.Machine.execTickBoundary t a4Pass s
  | .engineClockRestart t => Sys2Proof.Machine.execEngineClockRestart t s
  | .initRun t arraysPass => Sys2Proof.Machine.execInitRun t arraysPass s
  | .nop => Sys2Proof.Machine.execNop s
  | .twait fetch => Sys2Proof.Machine.execTwait fetch s
  | .loop cnt len => Sys2Proof.Machine.execLoop cnt len s
  | .smov sd imm => Sys2Proof.Machine.execSmov sd imm s
  | .sadd sd imm => Sys2Proof.Machine.execSadd sd imm s
  | .cyc sd fetch => Sys2Proof.Machine.execCyc sd fetch s
  | .tick sd imm => Sys2Proof.Machine.execTick sd imm s
  | .aflg sd imm => Sys2Proof.Machine.execAflg sd imm s
  | .lds o ecc => Sys2Proof.Machine.execLds o ecc s
  | .sts o => Sys2Proof.Machine.execSts o s
  | .ldc o ecc => Sys2Proof.Machine.execLdc o ecc s
  | .mvb o ecc mismatch => Sys2Proof.Machine.execMvb o ecc mismatch s
  | .mvr o ecc mismatch => Sys2Proof.Machine.execMvr o ecc mismatch s
  | .mvp o ecc mismatch => Sys2Proof.Machine.execMvp o ecc mismatch s
  | .mvw o ecc mismatch => Sys2Proof.Machine.execMvw o ecc mismatch s
  | .acrd o => Sys2Proof.Machine.execAcrd o s
  | .acxw o => Sys2Proof.Machine.execAcxw o s
  | .redx o => Sys2Proof.Machine.execRedx o s
  | .reda o order => Sys2Proof.Machine.execReda o order s
  | .vadd o => Sys2Proof.Machine.execVadd o s
  | .vsub o => Sys2Proof.Machine.execVsub o s
  | .vmul o => Sys2Proof.Machine.execVmul o s
  | .vfma o => Sys2Proof.Machine.execVfma o s
  | .vcvt o => Sys2Proof.Machine.execVcvt o s
  | .vxw o => Sys2Proof.Machine.execVxw o s
  | .vsuml o => Sys2Proof.Machine.execVsuml o s
  | .prng o => Sys2Proof.Machine.execPrng o s
  | .vmin o => Sys2Proof.Machine.execVmin o s
  | .vmax o => Sys2Proof.Machine.execVmax o s
  | .vclmp o => Sys2Proof.Machine.execVclmp o s
  | .vmini o => Sys2Proof.Machine.execVmini o s
  | .vcmp o => Sys2Proof.Machine.execVcmp o s
  | .vsel o => Sys2Proof.Machine.execVsel o s
  | .vsell o => Sys2Proof.Machine.execVsell o s
  | .tlop o ecc => Sys2Proof.Machine.execTlop o ecc s
  | .tluf o ecc => Sys2Proof.Machine.execTluf o ecc s
  | .rdsnp o => Sys2Proof.Machine.execRdsnp o s
  | .rdhint o => Sys2Proof.Machine.execRdhint o s
  | .rdact o => Sys2Proof.Machine.execRdact o s
  | .rdasy o => Sys2Proof.Machine.execRdasy o s
  | .wrout o => Sys2Proof.Machine.execWrout o s
  | .wrflg imm => Sys2Proof.Machine.execWrflg imm s
  | .rsend o freed => Sys2Proof.Machine.execRsend o freed s
  | .scrubAccess t mem hit found collide => Sys2Proof.Machine.execScrubAccess t mem hit found collide s
  | .scrubRemap mem word => Sys2Proof.Machine.execScrubRemap mem word s
  | .fastLoopPeriod t w windows results => Sys2Proof.Machine.execFastLoopPeriod t w windows results s
  | .senseFrame p frame => Sys2Proof.Machine.execSenseFrame p frame s
  | .fastLimitTrip p => Sys2Proof.Machine.execFastLimitTrip p s
  | .safeZeroCross p => Sys2Proof.Machine.execSafeZeroCross p s
  | .safeLowSideTimeout p => Sys2Proof.Machine.execSafeLowSideTimeout p s
  | .plaitRotation w => Sys2Proof.Machine.execPlaitRotation w s
  | .droopEpisodeStart t n crossed => Sys2Proof.Machine.execDroopEpisodeStart t n crossed s
  | .droopRound n => Sys2Proof.Machine.execDroopRound n s
  | .droopEpisodeEnd t n => Sys2Proof.Machine.execDroopEpisodeEnd t n s
  | .droopAssertMinExpiry t n => Sys2Proof.Machine.execDroopAssertMinExpiry t n s
  | .delayChainCalibration t => Sys2Proof.Machine.execDelayChainCalibration t s
  | .swapinStart t w => Sys2Proof.Machine.execSwapinStart t w s
  | .sackReceived w symbols => Sys2Proof.Machine.execSackReceived w symbols s
  | .swapinSackTimeout t w => Sys2Proof.Machine.execSwapinSackTimeout t w s
  | .calZeroDone t w mean => Sys2Proof.Machine.execCalZeroDone t w mean s
  | .calDelayDone t w roundTrip deadTime => Sys2Proof.Machine.execCalDelayDone t w roundTrip deadTime s
  | .calPulseDone t w => Sys2Proof.Machine.execCalPulseDone t w s
  | .regionSenseConversion c code => Sys2Proof.Machine.execRegionSenseConversion c code s
  | .probeStart t n => Sys2Proof.Machine.execProbeStart t n s
  | .probeEnd t n => Sys2Proof.Machine.execProbeEnd t n s
  | .ovTrip t n site => Sys2Proof.Machine.execOvTrip t n site s
  | .uvTimeout t n => Sys2Proof.Machine.execUvTimeout t n s
  | .detectorStuckTimeout t n k => Sys2Proof.Machine.execDetectorStuckTimeout t n k s
  | .raiseSlowTimeout t n => Sys2Proof.Machine.execRaiseSlowTimeout t n s
  | .converterCheckFail n => Sys2Proof.Machine.execConverterCheckFail n s
  | .arbiterDone t w code => Sys2Proof.Machine.execArbiterDone t w code s
  | .gainTRead t p r1 r2 => Sys2Proof.Machine.execGainTRead t p r1 r2 s
  | .gainTRetry t p r1 r2 => Sys2Proof.Machine.execGainTRetry t p r1 r2 s
  | .phtrigConfig p symbols => Sys2Proof.Machine.execPhtrigConfig p symbols s
  | .auxConversion t j code => Sys2Proof.Machine.execAuxConversion t j code s
  | .auxPwmFallback t j => Sys2Proof.Machine.execAuxPwmFallback t j s
  | .refSettled g => Sys2Proof.Machine.execRefSettled g s
  | .extRefCheck t ain7mV => Sys2Proof.Machine.execExtRefCheck t ain7mV s
  | .forecastExitStart t n => Sys2Proof.Machine.execForecastExitStart t n s
  | .regionReady t n => Sys2Proof.Machine.execRegionReady t n s
  | .softstartStage t n => Sys2Proof.Machine.execSoftstartStage t n s
  | .softstartTimeout t n => Sys2Proof.Machine.execSoftstartTimeout t n s
  | .detectorSelfTestDone t n detFail ovcFail => Sys2Proof.Machine.execDetectorSelfTestDone t n detFail ovcFail s
  | .dawnStage t n => Sys2Proof.Machine.execDawnStage t n s
  | .duskStage t n => Sys2Proof.Machine.execDuskStage t n s
  | .chipReset t => Sys2Proof.Machine.execChipReset t s
  | .resetDuskStart t w => Sys2Proof.Machine.execResetDuskStart t w s
  | .chipResetEnd t => Sys2Proof.Machine.execChipResetEnd t s
  | .tempSample t counts => Sys2Proof.Machine.execTempSample t counts s
  | .quiesceAck t => Sys2Proof.Machine.execQuiesceAck t s
  | .quiesceAckTimeout t => Sys2Proof.Machine.execQuiesceAckTimeout t s
  | .stopRegionDown t n => Sys2Proof.Machine.execStopRegionDown t n s
  | .barrierStale g id => Sys2Proof.Machine.execBarrierStale g id s
  | .flashWindowReopen t => Sys2Proof.Machine.execFlashWindowReopen t s
  | .clockSourceLoss t src => Sys2Proof.Machine.execClockSourceLoss t src s
  | .freqMonitorWindow t counts => Sys2Proof.Machine.execFreqMonitorWindow t counts s
  | .sourceRecovered t src => Sys2Proof.Machine.execSourceRecovered t src s
  | .loopRereference t => Sys2Proof.Machine.execLoopRereference t s
  | .sloStop t => Sys2Proof.Machine.execSloStop t s
  | .phActiveLoss t => Sys2Proof.Machine.execPhActiveLoss t s
  | .failoverResume t => Sys2Proof.Machine.execFailoverResume t s
  | .phaseClockCollapse t => Sys2Proof.Machine.execPhaseClockCollapse t s
  | .sscTurningPoint => Sys2Proof.Machine.execSscTurningPoint s
  | .psyncLock => Sys2Proof.Machine.execPsyncLock s
  | .classSEvent t src index => Sys2Proof.Machine.execClassSEvent t src index s
  | .collParityCheck t upsets => Sys2Proof.Machine.execCollParityCheck t upsets s
  | .vinGood t => Sys2Proof.Machine.execVinGood t s
  | .vinBad t => Sys2Proof.Machine.execVinBad t s
  | .alwaysOnReady t => Sys2Proof.Machine.execAlwaysOnReady t s
  | .imageLoad t buildV flash chanDly => Sys2Proof.Machine.execImageLoad t buildV flash chanDly s
  | .flashReady t => Sys2Proof.Machine.execFlashReady t s
  | .loadTimeout t buildV => Sys2Proof.Machine.execLoadTimeout t buildV s
  | .digestReady t trusted => Sys2Proof.Machine.execDigestReady t trusted s
  | .imgTrustedRise t level => Sys2Proof.Machine.execImgTrustedRise t level s
  | .trustTimeout t => Sys2Proof.Machine.execTrustTimeout t s
  | .safeModeCommit t => Sys2Proof.Machine.execSafeModeCommit t s
  | .journalCommitStart t => Sys2Proof.Machine.execJournalCommitStart t s
  | .flashOpDone t ok => Sys2Proof.Machine.execFlashOpDone t ok s
  | .flashOpTimeout t => Sys2Proof.Machine.execFlashOpTimeout t s
  | .journalCommitComplete t ok => Sys2Proof.Machine.execJournalCommitComplete t ok s
  | .pmbStartList t answers fails => Sys2Proof.Machine.execPmbStartList t answers fails s
  | .pmbPoll t answers => Sys2Proof.Machine.execPmbPoll t answers s
  | .pmbAlert t addr status fails statusFails => Sys2Proof.Machine.execPmbAlert t addr status fails statusFails s
  | .pmbRetry t j a => Sys2Proof.Machine.execPmbRetry t j a s
  | .tapExtest t => Sys2Proof.Machine.execTapExtest t s
  | .tapSamplePreload => Sys2Proof.Machine.execTapSamplePreload s
  | .tapBypass => Sys2Proof.Machine.execTapBypass s
  | .tapIdcode => Sys2Proof.Machine.execTapIdcode s
  | .testLogicReset low => Sys2Proof.Machine.execTestLogicReset low s
  | .hoopCap t f => Sys2Proof.Machine.execHoopCap t f s
  | .hoopBudget t f => Sys2Proof.Machine.execHoopBudget t f s
  | .hoopPace t f => Sys2Proof.Machine.execHoopPace t f s
  | .hoopTickSync t f => Sys2Proof.Machine.execHoopTickSync t f s
  | .hoopFault t f => Sys2Proof.Machine.execHoopFault t f s
  | .hoopProg t f => Sys2Proof.Machine.execHoopProg t f s
  | .hoopReservedType t f => Sys2Proof.Machine.execHoopReservedType t f s
  | .hoopBadFrame t lane syms => Sys2Proof.Machine.execHoopBadFrame t lane syms s
  | .hoopOwnFrameReturn t f => Sys2Proof.Machine.execHoopOwnFrameReturn t f s
  | .hoopResend t seq => Sys2Proof.Machine.execHoopResend t seq s
  | .hoopLaneFail t lane => Sys2Proof.Machine.execHoopLaneFail t lane s
  | .hoopLaneOk t lane => Sys2Proof.Machine.execHoopLaneOk t lane s
  | .hoopAllocation t => Sys2Proof.Machine.execHoopAllocation t s
  | .hoopAllocatorTakeover t => Sys2Proof.Machine.execHoopAllocatorTakeover t s
  | .hoopBudgetMissing t => Sys2Proof.Machine.execHoopBudgetMissing t s
  | .hoopDownTimeout t => Sys2Proof.Machine.execHoopDownTimeout t s
  | .hoopCapSend t => Sys2Proof.Machine.execHoopCapSend t s
  | .hoopTickSyncSend t => Sys2Proof.Machine.execHoopTickSyncSend t s
  | .hoopBypassOpen t => Sys2Proof.Machine.execHoopBypassOpen t s
  | .traceRecordExport ready => Sys2Proof.Machine.execTraceRecordExport ready s
  | .traceTriggerStop t => Sys2Proof.Machine.execTraceTriggerStop t s
  | .stateRecordCopyDone => Sys2Proof.Machine.execStateRecordCopyDone s
  | .replayTick t => Sys2Proof.Machine.execReplayTick t s
  | .clockSourceReady t src => Sys2Proof.Machine.execClockSourceReady t src s
  | .memoryTestDone failing => Sys2Proof.Machine.execMemoryTestDone failing s
  | .pmbTransferDone t ok data => Sys2Proof.Machine.execPmbTransferDone t ok data s
  | .hoopRateLimitExpiry t => Sys2Proof.Machine.execHoopRateLimitExpiry t s

end Sys2Proof.Machine
end

