-- ==== Sys2Proof/Machine/Step.lean ====
section
/-! DEFINITION. One step of the block: the command at the front of the queue is taken and executed; with an empty
queue the block idles. -/

namespace Sys2Proof.Machine

/-- Take the command at the front of the queue and execute it on the rest; idle when none waits. DESIGN CHOICE, log 1, 60. -/
def step (s : State) : Host.Outcome State Fault Refusal :=
  match s.pending with
  | [] => .next s
  | c :: rest => exec c { s with pending := rest }

/-- The state with the command a table word spells put at the front of the queue. No row of the table gives bits, so
no word spells a command. DEDUCED, log 15. -/
def State.withFetchWord (s : State) (_nbits _w : Nat) : State := s

end Sys2Proof.Machine
end

