-- ==== Sys2Proof/Safety.lean ====
section
/-! DEFINITION. The terms claims are stated in: a command that completes, what a block keeps, and the conditions on a block
under which a command meets no other event (no rebuild of the collector falls due, no replay, no host error). -/

namespace Sys2Proof.Machine

/-- The command answers a next state, which leaves the queue alone and whose block is as `Q` says. -/
def Completes (c : Instr) (s : State) (Q : Block → Prop) : Prop :=
  ∃ t : State, exec c s = .next t ∧ t.pending = s.pending ∧ Q t.blk

/-- No rebuild of the pending bits falls due as time passes (Table 13-7): the block is not in steps 1 and 2 of a block
warm reset. -/
abbrev Block.Calm (b : Block) : Prop := b.flt.step ≠ 1

/-- A write on the register port with no host error: no reserved bit set, no replay running (R391). -/
abbrev Block.PlainWrite (b : Block) (a : Nat) (data : Word) : Prop :=
  data &&& reservedBits a = 0 ∧ b.bit TRC_REPLAY_BUSY = false

/-- Every register of the host window but those listed keeps its word. -/
def Block.RegsKept (b b' : Block) (as : List Nat) : Prop := ∀ a, a ∉ as → b'.reg a = b.reg a

/-- Nothing differs but the time, registers, the restart mark of a stopped engine clock, and the log of what entered the
coming snapshot: what a transfer on the register port or the hint port does by itself (R20, R25, R481). -/
def Block.PortOnly (b b' : Block) : Prop :=
  b' = { b with now := b'.now, regs := b'.regs, eng := { b.eng with restartReq := b'.eng.restartReq },
                trc := { b.trc with events := b'.trc.events, dropped := b'.trc.dropped } }

/-- Nothing differs but what a transfer and the raise of an instance change: the time, registers, the collector's pending
instances, its log and the reactions that wait for a service clock, the journal kind of that log, the restart mark, and the log of the
coming snapshot (R337, R377, R390). -/
def Block.ReportOnly (b b' : Block) : Prop :=
  b' = { b with now := b'.now, regs := b'.regs, eng := { b.eng with restartReq := b'.eng.restartReq },
                trc := { b.trc with events := b'.trc.events, dropped := b'.trc.dropped },
                flt := { b.flt with insts := b'.flt.insts, first := b'.flt.first, latest := b'.flt.latest, log := b'.flt.log,
                                    waiting := b'.flt.waiting },
                img := { b.img with pend := b'.img.pend } }

/-- A class R source whose reaction only reports (None, Interrupt, NMI), with no block warm reset in progress: raising it
sets off nothing else (R383, R384, R399). -/
abbrev Block.Mild (b : Block) (src : Nat) : Prop := isClassS src = false ∧ b.reaction src < 3 ∧ b.flt.step = 0

/-- The sources of a list, each as `Mild` says. -/
abbrev Block.Milds (b : Block) (srcs : List Nat) : Prop := ∀ src, src ∈ srcs → b.Mild src

/-- The raise of an instance, which a disabled source leaves undone (R376, R377). -/
def Block.Raised (b b' : Block) (src index : Nat) : Prop :=
  b'.raisedInst src index = (b.srcEnabled src || b.raisedInst src index)

/-- Registers whose write has an effect that a rule of its own gives; every other stores its writable fields. -/
def ownRule (a : Nat) : Bool :=
  inArray FLT_CFG_EN.base 128 a || inArray REG_GSLEEP_SLEEP.base 32 a || inArray WV_SWAP_REQ.base 16 a ||
  [IMG_CTL_HOLD_DARK.base, IMG_RCADDR_ENTRY.base, IMG_RCDATA_ENTRY_DATA.base, ENG_MADDR_MEM.base, ENG_MDATA_DATA.base + 12,
   TRC_CTL_MODE.base, TRC_EXP_BASE_LO_BASE_MID.base, TRC_EXP_BASE_HI_BASE_HI.base, TRC_TICKSET_LO_TICK_LO.base,
   TRC_TICKSET_HI_TICK_HI.base, TRC_REPLAY_START.base, TRC_FLAGS_SLICE_FLAGS.base, PWR_CAP_SLOW_LIMIT.base,
   CLK_CTL_REF_AUTO.base, CLK_GATE_FIO.base, CLK_XCFG_XB_10K.base, CLK_PSYNC_EN.base, ADC_REF_EXT_MV.base,
   ADC_CAL_CTL_POINT.base, ADC_PHTRIG_EVENT.base, FLT_CLEAR_SRC.base, FLT_CTL_BRESET.base, HOOP_CTL_LEAVE.base,
   PMB_CTL_CMD.base].contains a

/-- Bits of a lane of a value in format TY (R173). -/
def laneBits (ty : Nat) : Nat := if ty = 1 then 36 else 18

/-- The engine differs in nothing but its pipeline, what has moved it, and its program counter: what the issue of an instruction
does by itself. -/
def Eng.IssueOnly (e e' : Eng) : Prop :=
  e' = { e with pipe := e'.pipe, trail := e'.trail, stalls := e'.stalls, pc := e'.pc, loopLeft := e'.loopLeft }

/-- Every other part of the engine and the block is as it was: only block registers and the issue's own marks changed. -/
def Block.BlocksOnly (b b' : Block) : Prop :=
  { b.eng with blk := b'.eng.blk }.IssueOnly b'.eng ∧ b' = { b with eng := b'.eng }

/-- The accumulator cells of some outputs and lanes hold `f`, every other cell is as it was, and so is all else but the
issue's own marks. -/
def Block.CellsResult (b b' : Block) (ac outs lanesN : Nat) (f : Nat → Nat → Nat → Cell) : Prop :=
  (∀ q o i, q < 4 → o < outs → i < lanesN → b'.eng.cell q ac o i = f q o i) ∧
  (∀ q a o i, q < 4 → a < 4 → o < 1024 → i < 64 → (a ≠ ac ∨ outs ≤ o ∨ lanesN ≤ i) → b'.eng.cell q a o i = b.eng.cell q a o i) ∧
  { b.eng with acc := b'.eng.acc }.IssueOnly b'.eng ∧ b' = { b with eng := b'.eng }

/-- Values 0..n−1 of block `bd` hold `f` in every slice and lane; a slice's sticky flag is set where a lane of its own sets
it, and never cleared (R217); every other block register, and all else but ENG_ARITH and the pipeline, is as it was. -/
def Block.VectorResult (b b' : Block) (ty bd n : Nat) (f : Nat → Nat → Nat → LRes) : Prop :=
  (∀ q v i, q < 4 → v < n → i < 64 → b'.eng.value q ty bd v i = (f q v i).bits % 2 ^ laneBits ty) ∧
  (∀ q, q < 4 →
    (b'.eng.inv.getLsbD q = true ↔ b.eng.inv.getLsbD q = true ∨ ∃ v i, v < n ∧ i < 64 ∧ (f q v i).inv = true) ∧
    (b'.eng.ovf.getLsbD q = true ↔ b.eng.ovf.getLsbD q = true ∨ ∃ v i, v < n ∧ i < 64 ∧ (f q v i).ovf = true)) ∧
  (∀ q k r, q < 4 → k < 32 → k ≠ bd → r < 4 → b'.eng.row q k r = b.eng.row q k r) ∧
  { b.eng with blk := b'.eng.blk, inv := b'.eng.inv, ovf := b'.eng.ovf }.IssueOnly b'.eng ∧
  b' = { b with regs := b'.regs, eng := b'.eng } ∧ b.RegsKept b' [ENG_ARITH_INV0.base]

/-- A program runs, and the instruction's fields are legal: it issues (R174, R193). -/
abbrev Block.Issues (b : Block) (i : Instr) : Prop := b.eng.run ≠ .none ∧ i.wf = true

/-- Nothing differs but registers. -/
def Block.RegsOnly (b b' : Block) : Prop := b' = { b with regs := b'.regs }

/-- Nothing differs but the time and registers. -/
def Block.TimeRegsOnly (b b' : Block) : Prop := b' = { b with now := b'.now, regs := b'.regs }

/-- Nothing differs but the time, registers, and the record of phase position `p`. -/
def Block.PhaseOnly (b b' : Block) (p : Nat) : Prop :=
  (∀ q, q ≠ p → b'.P q = b.P q) ∧ b' = { b with now := b'.now, regs := b'.regs, ph := b'.ph }

/-- Nothing differs but the time, registers, and the record of region `n`. -/
def Block.RegionOnly (b b' : Block) (n : Nat) : Prop :=
  (∀ m, m ≠ n → b'.R m = b.R m) ∧ b' = { b with now := b'.now, regs := b'.regs, rgn := b'.rgn }

/-- What keeps the engine clock running at a boundary: a hint that waits for the snapshot, a read of an engine memory in progress, or
a region in mesh soft start that no lack of capacity can end (R20). DEDUCED, log 31. -/
abbrev Block.Awake (b : Block) : Prop :=
  (∃ g, g < 32 ∧ (b.H g).count ≠ 0) ∨ b.bit ENG_MADDR_BUSY = true ∨
  (∃ n, n < 256 ∧ b.st n = sSoftstart ∧ b.efld REG_PCTL_IDLE_MIN n = 0 ∧ b.fld REG_PCTL_IDLE_MIN n = 0)

/-- A tick has started: RUNNING, TICKNO one on, the program at its entry on cleared block registers and accumulators (R173, R186,
R204). -/
def Block.Ticked (b b' : Block) : Prop :=
  b'.fld ENG_STATUS_STATE = eRunning ∧ b'.tickno = (b.tickno + 1) % 2 ^ 64 ∧ b'.eng.run = .tick ∧ b'.eng.pc = b.eng.tickEntry ∧
  b'.eng.blk = [] ∧ b'.eng.acc = []

/-- The host window is in the canonical form of a sparse table: addresses strictly rising, and no listed word equal to the
reset word of its address. -/
def Block.WindowWf (b : Block) : Prop := b.regs.wf resetWord = true

/-- What the block's lists never outgrow: 64 records of the fault log (R390), 4 open barriers of a group (R230); the pending
persistent rows are in canonical form (R172); and a limits section, staged or in force, writes only registers that hold an
RW field (R414). -/
def Block.Bounded (b : Block) : Prop :=
  b.flt.log.length ≤ 64 ∧ (∀ g, (b.H g).openBars.length ≤ 4) ∧ b.eng.smPend.wf (fun _ => none) = true ∧
  b.img.limitRegs.all writeAllowed = true ∧ b.img.staged.writes.all (fun w => writeAllowed w.1) = true

end Sys2Proof.Machine
end

