-- ==== Sys2Proof/Certificates/Slice0/Obligations.lean ====
section
/-! DEFINITION. What is claimed of the block, each claim a proposition by name. `Completes c s Q` says that the command `c`
answers a next state from `s`, with the queue as it was and a block of which `Q` holds. -/

open Sys2Proof Sys2Proof.Machine

/-! The block as a machine. -/

/-- A step takes the command at the front of the queue and is that command's meaning on the rest. -/
def Obligations.StepRunsFrontCommand : Prop :=
  ∀ (c : Instr) (rest : List Instr) (b : Block),
    step { pending := c :: rest, blk := b } = exec c { pending := rest, blk := b }

/-- With no command waiting the block idles (the model's choice: log entry 1). -/
def Claims.EmptyQueueIdles : Prop :=
  ∀ b : Block, step { pending := [], blk := b } = .next { pending := [], blk := b }

/-- No command stops the block: every step answers a next state, and takes at most the front command off the queue. -/
def Claims.EveryStepAnswers : Prop :=
  ∀ s : State, ∃ t : State, step s = .next t ∧ t.pending = s.pending.tail

/-- Every command answers a next state on every block and leaves the queue as it was: no form stops. -/
def Obligations.CommandsAnswer : Prop :=
  ∀ (c : Instr) (s : State), ∃ t : State, exec c s = .next t ∧ t.pending = s.pending

/-- Idling, and the answer of every step. -/
def Obligations.StepAnswers : Prop :=
  Claims.EmptyQueueIdles ∧ Claims.EveryStepAnswers

/-- After reset every register of the host window holds its reset word (R495), no instance is raised, no program runs, no
command waits, VIN is not good, and FAULT_N is held low (R60). What the spec gives no value is the model's choice: log entry 6. -/
def Obligations.ResetBlock : Prop :=
  (∀ a, State.reset.blk.reg a = resetWord a) ∧ State.reset.blk.flt.insts = [] ∧ State.reset.blk.eng.run = .none ∧
  State.reset.pending = [] ∧ State.reset.blk.vinGood = false ∧ State.reset.blk.faultNLow = true

/-- The host window keeps its canonical form through every step. -/
def Obligations.StepKeepsWindowForm : Prop :=
  ∀ s t : State, s.blk.WindowWf → step s = .next t → t.blk.WindowWf

/-- The bounds of the block's lists hold through every step: at most 64 log records (R390) and 4 open barriers of a group (R230),
pending rows in canonical form (R172), limits writes to writable registers only (R414). -/
def Obligations.StepKeepsBounds : Prop :=
  ∀ s t : State, s.blk.Bounded → step s = .next t → t.blk.Bounded

/-- At reset the host window has its canonical form, and the bounds hold. -/
def Obligations.ResetInvariant : Prop := State.reset.blk.WindowWf ∧ State.reset.blk.Bounded

/-! The register port. -/

/-- A write of a register without a rule of its own, with no W1C bit written 1, stores the writable fields and nothing else
(R4 to R6, R25, Table 0-6); an address without a register takes nothing. -/
def Claims.PlainRegisterWrite : Prop :=
  ∀ (s : State) (t a : Nat) (data : Word), s.blk.Calm → s.blk.PlainWrite a data → a % 4 = 0 → ownRule a = false →
    (∀ d, findReg a = some d → data &&& d.w1c = 0 →
      Completes (.hostRegisterWrite t a data true) s (fun b' =>
        b'.reg a = ((s.blk.reg a &&& ~~~(d.rw ||| d.rws)) ||| (data &&& (d.rw ||| d.rws))) ∧
        s.blk.PortOnly b' ∧ s.blk.RegsKept b' [a] ∧ b'.now = max s.blk.now t)) ∧
    (findReg a = none →
      Completes (.hostRegisterWrite t a data true) s (fun b' => s.blk.PortOnly b' ∧ s.blk.RegsKept b' []))

/-- A read transferred on the register port returns the word of its address, an access restarts a stopped engine clock, and nothing
else changes but the latch of a LO half (R4, R20, R25, R204, R282). An unaligned read returns an unpredictable word: the next free
value (the model's choice: log entry 7). -/
def Claims.PlainRegisterRead : Prop :=
  ∀ (s : State) (t a : Nat) (data : Word), s.blk.Calm →
    let kept := fun b' : Block => b' = { s.blk with
      now := max s.blk.now t, rdata := b'.rdata, freeCtr := b'.freeCtr, tickHi := b'.tickHi, energyHi := b'.energyHi,
      eng := { s.blk.eng with restartReq := s.blk.eng.restartReq || s.blk.eng.clockStopped } }
    (a % 4 = 0 → Completes (.hostRegisterWrite t a data false) s (fun b' =>
      b'.rdata = b'.hostRead a ∧ kept b' ∧ b'.freeCtr = s.blk.freeCtr ∧
      (a ≠ ENG_TICKNO_LO_VAL.base → b'.tickHi = s.blk.tickHi) ∧
      (a = ENG_TICKNO_LO_VAL.base → b'.tickHi = s.blk.reg ENG_TICKNO_HI_VAL.base) ∧
      (energyHalf (a + 4) = false → b'.energyHi = s.blk.energyHi) ∧
      (energyHalf (a + 4) = true → b'.energyHi.get (fun _ => none) (a + 4) = some (s.blk.reg (a + 4))))) ∧
    (a % 4 ≠ 0 → Completes (.hostRegisterWrite t a data false) s (fun b' =>
      b'.rdata = Config.freeWord s.blk.freeCtr ∧ kept b' ∧ b'.tickHi = s.blk.tickHi ∧ b'.energyHi = s.blk.energyHi))

/-- A write of FLT_CFG[s] of a defined source leaves the word with even parity; EN of a class S source stays 1, and
COLL_PARITY keeps its reaction (R382, R400, R407). A write of CLK_GATE leaves the forced enables 1 (R346). -/
def Claims.GuardedRegisterWrites : Prop :=
  ∀ (s : State) (t : Nat) (data : Word), s.blk.Calm →
    (∀ src, src < 128 → isSource src = true → s.blk.PlainWrite (FLT_CFG_EN.base + 4 * src) data →
      Completes (.hostRegisterWrite t (FLT_CFG_EN.base + 4 * src) data true) s (fun b' =>
        parity (b'.reg (FLT_CFG_EN.base + 4 * src)) = false ∧
        b'.bit FLT_CFG_EN src = (isClassS src || data.getLsbD 8) ∧
        b'.fld FLT_CFG_REACT src = (if src = srcCOLL_PARITY then 4 else data.toNat % 8) ∧
        s.blk.PortOnly b' ∧ s.blk.RegsKept b' [FLT_CFG_EN.base + 4 * src])) ∧
    (s.blk.PlainWrite CLK_GATE_FIO.base data →
      Completes (.hostRegisterWrite t CLK_GATE_FIO.base data true) s (fun b' =>
        b'.reg CLK_GATE_FIO.base &&& forcedGates = forcedGates ∧ s.blk.PortOnly b' ∧
        s.blk.RegsKept b' [CLK_GATE_FIO.base]))

/-- Writes and reads on the register port. -/
def Obligations.RegisterWrites : Prop :=
  Claims.PlainRegisterWrite ∧ Claims.PlainRegisterRead ∧ Claims.GuardedRegisterWrites

/-- A read of a LO half returns it and latches its HI half, which the next read of HI returns (R204, R282, R437). -/
def Obligations.LowHalfReads : Prop :=
  ∀ s : State,
    Completes .ticknoLoRead s (fun b' =>
      b'.rdata = s.blk.reg ENG_TICKNO_LO_VAL.base ∧ b'.hostRead ENG_TICKNO_HI_VAL.base = s.blk.reg ENG_TICKNO_HI_VAL.base ∧
      b' = { s.blk with rdata := b'.rdata, tickHi := b'.tickHi, eng := { s.blk.eng with restartReq := b'.eng.restartReq } }) ∧
    Completes .chipidLoRead s (fun b' =>
      b'.rdata = Config.chipId.setWidth 32 ∧ b'.hostRead CFG_CHIPID_HI_ID_HI.base = (Config.chipId >>> 32).setWidth 32 ∧
      b' = { s.blk with rdata := b'.rdata, chipHi := b'.chipHi, eng := { s.blk.eng with restartReq := b'.eng.restartReq } }) ∧
    ∀ a, energyHalf (a + 4) = true →
      Completes (.energyLoRead a) s (fun b' =>
        b'.rdata = s.blk.reg a ∧ b'.hostRead (a + 4) = s.blk.reg (a + 4) ∧
        (∀ c, c ≠ a + 4 → b'.energyHi.get (fun _ => none) c = s.blk.energyHi.get (fun _ => none) c) ∧
        b' = { s.blk with rdata := b'.rdata, energyHi := b'.energyHi, eng := { s.blk.eng with restartReq := b'.eng.restartReq } })

/-- A write of ENG_CTL.HALT sets or clears the request, which the next boundary takes (R197). -/
def Claims.HaltRequest : Prop :=
  ∀ (s : State) (t : Nat), s.blk.Calm → s.blk.bit TRC_REPLAY_BUSY = false →
    Completes (.engHalt t) s (fun b' =>
      b'.fld ENG_CTL_HALT = 1 ∧ s.blk.PortOnly b' ∧ s.blk.RegsKept b' [ENG_CTL_HALT.base] ∧ b'.now = max s.blk.now t) ∧
    Completes (.engResume t) s (fun b' =>
      b'.fld ENG_CTL_HALT = 0 ∧ s.blk.PortOnly b' ∧ s.blk.RegsKept b' [ENG_CTL_HALT.base] ∧ b'.now = max s.blk.now t)

/-- A write of ENG_MADDR starts a read of the word named, or none where it names no word, and ENG_MDATA then reads zeros
(R198). -/
def Claims.MemoryReadStarts : Prop :=
  ∀ (s : State) (data : Word), s.blk.PlainWrite ENG_MADDR_MEM.base data →
    (hostWord (Fld.get ENG_MADDR_MEM data) (Fld.get ENG_MADDR_WORD data) = true →
      Completes (.engMemRead data) s (fun b' =>
        b'.fld ENG_MADDR_BUSY = 1 ∧
        b'.eng.mread = some { mem := Fld.get ENG_MADDR_MEM data, word := Fld.get ENG_MADDR_WORD data } ∧
        b'.eng = { s.blk.eng with restartReq := b'.eng.restartReq, mread := b'.eng.mread } ∧
        s.blk.RegsKept b' [ENG_MADDR_MEM.base])) ∧
    (hostWord (Fld.get ENG_MADDR_MEM data) (Fld.get ENG_MADDR_WORD data) = false →
      Completes (.engMemRead data) s (fun b' =>
        b'.fld ENG_MADDR_BUSY = 0 ∧ b'.eng.mread = none ∧
        (∀ i, i < 4 → b'.fld ENG_MDATA_DATA i = 0 ∧ b'.hostRead (ENG_MDATA_DATA.base + 4 * i) = 0) ∧
        s.blk.RegsKept b' (ENG_MADDR_MEM.base :: (List.range 4).map (ENG_MDATA_DATA.base + 4 * ·))))

/-- A host-window read completes with the word, as it is after the errors met, in ENG_MDATA0..3, and BUSY clears; with no
error and no collision the engine is otherwise unchanged (R198). -/
def Claims.MemoryReadCompletes : Prop :=
  ∀ (s : State) (a : MemWord), s.blk.eng.mread = some a →
    (∀ (ecc : List EccHit) (collide : Bool),
      Completes (.engMemReadDone ecc collide) s (fun b' =>
        (∀ i, i < 4 → (b'.hostRead (ENG_MDATA_DATA.base + 4 * i)).toNat =
          (b'.eng.word a.mem a.word).toNat / 2 ^ (32 * i) % 2 ^ 32) ∧
        b'.fld ENG_MADDR_BUSY = 0 ∧ b'.eng.mread = none)) ∧
    Completes (.engMemReadDone [] false) s (fun b' =>
      b' = { s.blk with regs := b'.regs, eng := { s.blk.eng with mread := none, noWord := false } } ∧
      s.blk.RegsKept b' (ENG_MADDR_MEM.base :: (List.range 4).map (ENG_MDATA_DATA.base + 4 * ·)))

/-- A write of ENG_MDATA3 writes ENG_MDATA0..3 to the state memory word named while the engine is HALTED or STOPPED, and no
other word of any memory: a word of a persistent row in both copies, where a store has made a pending one; otherwise it writes no
memory and sets ENG_FLAGS.MWR_REFUSED (R172, R198, R210). -/
def Claims.MemoryWrite : Prop :=
  ∀ (s : State) (data : Word), s.blk.PlainWrite (ENG_MDATA_DATA.base + 12) data →
    let w := s.blk.fld ENG_MADDR_WORD
    let may := (s.blk.fld ENG_STATUS_STATE = eHalted ∨ s.blk.fld ENG_STATUS_STATE = eStopped) ∧ s.blk.fld ENG_MADDR_MEM = 1 ∧
      hostWord 1 w = true
    let v := s.blk.fld ENG_MDATA_DATA 0 + 2 ^ 32 * s.blk.fld ENG_MDATA_DATA 1 + 2 ^ 64 * s.blk.fld ENG_MDATA_DATA 2 +
      2 ^ 96 * data.toNat
    let row := w % bankWords 1 / 9
    let key := w / bankWords 1 * 256 + row
    let pending := fun (b : Block) (k : Nat) => b.eng.smPend.get (fun _ => none) k
    let word := fun (r : BRow) (j : Nat) => r.toNat / 2 ^ (128 * j) % 2 ^ 128
    (may →
      Completes (.engMemWrite data) s (fun b' =>
        (b'.eng.word 1 w).toNat = v ∧ (∀ u, u ≠ w → b'.eng.word 1 u = s.blk.eng.word 1 u) ∧
        (∀ r, row < 256 → pending s.blk key = some r → ∃ r', pending b' key = some r' ∧
          ∀ j, j < 9 → word r' j = if j = w % bankWords 1 % 9 then v else word r j) ∧
        (pending s.blk key = none → pending b' key = none) ∧
        (∀ k, (k ≠ key ∨ 256 ≤ row) → pending b' k = pending s.blk k) ∧
        b'.eng = { s.blk.eng with restartReq := b'.eng.restartReq, sm := b'.eng.sm, smPend := b'.eng.smPend } ∧
        s.blk.RegsKept b' [ENG_MDATA_DATA.base + 12])) ∧
    (¬ may → s.blk.Mild srcMWR_REFUSED →
      Completes (.engMemWrite data) s (fun b' =>
        b'.fld ENG_FLAGS_MWR_REFUSED = 1 ∧ s.blk.Raised b' srcMWR_REFUSED 0 ∧ s.blk.ReportOnly b' ∧
        s.blk.RegsKept b' [ENG_MDATA_DATA.base + 12, ENG_FLAGS_MWR_REFUSED.base]))

/-- The host window of the engine: halt, reads and writes. -/
def Obligations.EngineWindow : Prop :=
  Claims.HaltRequest ∧ Claims.MemoryReadStarts ∧ Claims.MemoryReadCompletes ∧ Claims.MemoryWrite

/-- A write of WV_SWAP[w] with REQ = 1 queues a planned swap-in of LPOS last, behind the failures, or is refused; with
no idle spare it is refused with POOL_EMPTY (R91). That a request naming the position whose swap-in runs is refused too is the model's
choice (log entry 65). -/
def Obligations.SwapRequest : Prop :=
  ∀ (s : State) (t w : Nat) (data : Word), w < 16 → s.blk.Calm → s.blk.PlainWrite (WV_SWAP_REQ.base + 4 * w) data →
    data.getLsbD 31 = true →
    let l := Fld.get WV_SWAP_LPOS data
    let bad := weaveOfPhase l ≠ w ∨ 1024 ≤ l ∨ populatedIn s.blk.isV l = false ∨
      (s.blk.serving l).any (fun p => s.blk.cond p = cSafe) = true ∨ (∃ e ∈ (s.blk.W w).queue, e.lpos = l) ∨
      s.blk.swapTarget w = some l
    let spare := (s.blk.idleSpares w).isEmpty = false
    (¬ bad → spare →
      Completes (.swapRequest t w data) s (fun b' =>
        (b'.W w).queue = (s.blk.W w).queue ++
          [{ lpos := l, planned := true, waiting := [sDark, sFaulted, sSoftstart].contains (s.blk.st (l / 4)) }] ∧
        (∀ v, v ≠ w → b'.W v = s.blk.W v) ∧ b'.eng.run = s.blk.eng.run ∧ b'.rgn = s.blk.rgn ∧ b'.ph = s.blk.ph ∧
        b'.flt = s.blk.flt ∧ s.blk.RegsKept b' [WV_SWAP_REQ.base + 4 * w])) ∧
    (bad →
      Completes (.swapRequest t w data) s (fun b' =>
        b'.fld WV_SWAP_REFUSED w = 1 ∧ s.blk.PortOnly b' ∧ s.blk.RegsKept b' [WV_SWAP_REQ.base + 4 * w])) ∧
    (¬ bad → ¬ spare → s.blk.Mild srcPOOL_EMPTY →
      Completes (.swapRequest t w data) s (fun b' =>
        b'.fld WV_SWAP_REFUSED w = 1 ∧ s.blk.Raised b' srcPOOL_EMPTY w ∧ s.blk.ReportOnly b' ∧
        s.blk.RegsKept b' [WV_SWAP_REQ.base + 4 * w]))

/-- A write of REG_GSLEEP[g] with SLEEP = 1 and WAKE = 0 is accepted as the group's request, forced or not, for the next tick
boundary; a clear of REFUSED waits for that boundary too; no region and no field changes yet (R144, R161, R166). With neither bit no
request is made. -/
def Claims.GroupSleep : Prop :=
  ∀ (s : State) (t g : Nat) (data : Word), g < 32 → s.blk.Calm → s.blk.PlainWrite (REG_GSLEEP_SLEEP.base + 4 * g) data →
    data.getLsbD 29 = false →
    let clears := fun (b : Block) (a : Nat) => b.clearDue.get (fun _ => 0) a
    let kept := fun b' : Block =>
      clears b' (REG_GSLEEP_SLEEP.base + 4 * g) = clears s.blk (REG_GSLEEP_SLEEP.base + 4 * g) ||| (data &&& 0x10000000) ∧
      (∀ a, a ≠ REG_GSLEEP_SLEEP.base + 4 * g → clears b' a = clears s.blk a) ∧
      s.blk.PortOnly { b' with gsleep := s.blk.gsleep, clearDue := s.blk.clearDue } ∧ s.blk.RegsKept b' []
    (data.getLsbD 31 = true → Completes (.groupSleepRequest t g data) s (fun b' =>
      b'.gsleep.get (fun _ => 0) g = (if data.getLsbD 30 then 2 else 1) ∧
      (∀ k, k ≠ g → b'.gsleep.get (fun _ => 0) k = s.blk.gsleep.get (fun _ => 0) k) ∧ kept b')) ∧
    (data.getLsbD 31 = false → Completes (.groupSleepRequest t g data) s (fun b' => b'.gsleep = s.blk.gsleep ∧ kept b'))

/-- At the boundary a request sends each region of the group in RUN, if its chosen depth is not RUN and it takes no part in a stop
or reset, to that depth, or refuses it while its counters are not zero and the request is not forced; regions of other states and
of groups without a request are left alone (R144, R161, R166). -/
def Claims.GroupSleepTaken : Prop :=
  ∀ b : Block, b.bit IMG_STATUS_SAFE = false →
    b.takeSleeps.gsleep = [] ∧
    ∀ g n, g < 32 → n < 256 → b.groupOf n = some g →
      let asked := b.gsleep.get (fun _ => 0) g
      (asked ≠ 0 → b.st n = sRun → b.fld REG_PSTATE_DEPTH n ≠ 0 → b.wakeIgnored n = false →
        (((b.R n).busy = false ∨ asked = 2) →
          b.takeSleeps.st n = sLeaving ∧ (b.takeSleeps.R n).descent = 1 ∧ (b.takeSleeps.R n).depth = b.fld REG_PSTATE_DEPTH n ∧
          (b.takeSleeps.R n).forced = (b.R n).busy) ∧
        (((b.R n).busy = true ∧ asked ≠ 2) →
          b.takeSleeps.st n = sRun ∧ b.takeSleeps.fld REG_PSTATE_REFUSED n = 1 ∧ b.takeSleeps.fld REG_GSLEEP_REFUSED g = 1)) ∧
      ((asked = 0 ∨ b.st n ≠ sRun) → b.takeSleeps.st n = b.st n ∧ b.takeSleeps.R n = b.R n)

/-- A write of REG_GSLEEP[g] with WAKE = 1, whatever its SLEEP, is a wake event at its transfer for every region of the group that
wake events reach: DOZE and NAP go to WAKING, DARK begins its soft start from the mesh's voltage, PRIMED its Dawn, a descent is
abandoned at the next boundary; a region in RUN stays, and no region outside the group changes (R138, R146, R161). The latency of an
exit counts from the first wake that is kept (R140, R159). -/
def Claims.GroupWake : Prop :=
  ∀ (s : State) (t g : Nat) (data : Word), g < 32 → s.blk.Calm → s.blk.PlainWrite (REG_GSLEEP_SLEEP.base + 4 * g) data →
    data.getLsbD 29 = true →
    let from' := fun n : Nat => if (s.blk.R n).keptWake && (s.blk.R n).wakeAt.isSome then (s.blk.R n).wakeAt else some (max s.blk.now t)
    Completes (.groupWakeRequest t g data) s (fun b' =>
      (∀ n, n < 256 → s.blk.groupOf n = some g → s.blk.wakeIgnored n = false →
        ((s.blk.st n = sDoze ∨ s.blk.st n = sNap) → b'.st n = sWaking ∧ (b'.R n).wakeAt = from' n) ∧
        (s.blk.st n = sDark → s.blk.clk.forcing = false →
          b'.st n = sSoftstart ∧ b'.fld REG_VSET_APPLIED n = s.blk.fld REG_VSENSE_VOUT n) ∧
        (s.blk.st n = sPrimed → s.blk.restarting = false → b'.st n = sDawn ∧ (b'.R n).wakeAt = from' n) ∧
        (s.blk.st n = sLeaving → (s.blk.R n).capDark = false → b'.st n = sLeaving ∧ (b'.R n).abandon = true) ∧
        (s.blk.st n = sRun → b'.st n = sRun)) ∧
      (∀ n, n < 256 → s.blk.groupOf n ≠ some g → b'.st n = s.blk.st n ∧ b'.R n = s.blk.R n) ∧
      b'.gsleep = s.blk.gsleep ∧ b'.flt = s.blk.flt ∧ b'.img = s.blk.img ∧ b'.red = s.blk.red ∧ b'.adc = s.blk.adc)

/-- Sleep requests and wakes of a group. -/
def Obligations.GroupRequests : Prop :=
  Claims.GroupSleep ∧ Claims.GroupSleepTaken ∧ Claims.GroupWake

/-- PH_SWAP exchanges the phase loops when the standby is ready and back in its role, and SVC_SWAP moves the service domain when the
other source is ready; a request whose target is not leaves the source in force and sets CLK_MON.SW_REFUSED (R329, R335). -/
def Claims.ClockSwitches : Prop :=
  ∀ (s : State) (data : Word), s.blk.PlainWrite CLK_CTL_REF_AUTO.base data → s.blk.clk.forcing = false →
    (data.getLsbD 0 = true → data.getLsbD 1 = false →
      (s.blk.standbyUp = true → Completes (.phSwap data) s (fun b' =>
        b'.fld CLK_STATUS_PH_ACTIVE = 1 - s.blk.fld CLK_STATUS_PH_ACTIVE ∧ b'.fld CLK_CTL_REF_AUTO = Fld.get CLK_CTL_REF_AUTO data ∧
        s.blk.PortOnly b' ∧ s.blk.RegsKept b' [CLK_CTL_REF_AUTO.base, CLK_STATUS_PH_ACTIVE.base])) ∧
      (s.blk.standbyUp = false → Completes (.phSwap data) s (fun b' =>
        b'.fld CLK_MON_SW_REFUSED = 1 ∧ s.blk.PortOnly b' ∧ s.blk.RegsKept b' [CLK_CTL_REF_AUTO.base, CLK_MON_SW_REFUSED.base]))) ∧
    (data.getLsbD 0 = false → data.getLsbD 1 = true →
      let target := if s.blk.bit CLK_STATUS_SVC_SRC then kFIO else kPLLE
      (s.blk.clkReady target = true → Completes (.svcSwap data) s (fun b' =>
        b'.fld CLK_STATUS_SVC_SRC = 1 - s.blk.fld CLK_STATUS_SVC_SRC ∧
        s.blk.PortOnly b' ∧ s.blk.RegsKept b' [CLK_CTL_REF_AUTO.base, CLK_STATUS_SVC_SRC.base])) ∧
      (s.blk.clkReady target = false → Completes (.svcSwap data) s (fun b' =>
        b'.fld CLK_MON_SW_REFUSED = 1 ∧ s.blk.PortOnly b' ∧ s.blk.RegsKept b' [CLK_CTL_REF_AUTO.base, CLK_MON_SW_REFUSED.base])))

/-- CLK_PSYNC.EN written 1 is accepted exactly when XB_10K is within 1,000..10,000, N = switching frequency / XB frequency is
an integer in 1..16, and XB is ready: N is shown, the spread is suspended and the loops take XB; otherwise EN reads 0 and
REFUSED is set (R340). A write of XB_10K is stored, or ignored with SW_REFUSED while alignment or an XB reference is in force
(R343). -/
def Claims.PhaseAlignment : Prop :=
  ∀ (s : State) (data : Word),
    let f := if s.blk.isV then 10000 else 14000
    let xb := s.blk.fld CLK_XCFG_XB_10K
    let ok := 1000 ≤ xb ∧ xb ≤ 10000 ∧ f % xb = 0 ∧ 1 ≤ f / xb ∧ f / xb ≤ 16 ∧ s.blk.clkReady kXB = true
    (s.blk.PlainWrite CLK_PSYNC_EN.base data → data.getLsbD 31 = true →
      (ok → Completes (.psyncEnable data) s (fun b' =>
        b'.fld CLK_PSYNC_EN = 1 ∧ b'.fld CLK_PSYNC_N = f / xb ∧ b'.fld CLK_PSYNC_OFFSET = data.toNat % 256 ∧
        b'.fld CLK_STATUS_SSC_SUPPR = 1 ∧ b'.fld CLK_STATUS_REF = 1 ∧
        s.blk.RegsKept b' [CLK_PSYNC_EN.base, CLK_STATUS_REF.base])) ∧
      (¬ ok → Completes (.psyncEnable data) s (fun b' =>
        b'.fld CLK_PSYNC_EN = 0 ∧ b'.fld CLK_PSYNC_REFUSED = 1 ∧ b'.fld CLK_PSYNC_OFFSET = data.toNat % 256 ∧
        s.blk.RegsKept b' [CLK_PSYNC_EN.base, CLK_STATUS_REF.base]))) ∧
    (s.blk.PlainWrite CLK_PSYNC_EN.base data → data.getLsbD 31 = false → Completes (.psyncEnable data) s (fun b' =>
      b'.fld CLK_PSYNC_EN = 0 ∧ b'.fld CLK_PSYNC_N = 0 ∧ b'.fld CLK_PSYNC_OFFSET = data.toNat % 256 ∧
      b'.fld CLK_STATUS_SSC_SUPPR = 0 ∧ b'.fld CLK_STATUS_PSYNC_LOCKED = 0 ∧
      s.blk.RegsKept b' [CLK_PSYNC_EN.base, CLK_STATUS_REF.base])) ∧
    (s.blk.PlainWrite CLK_XCFG_XB_10K.base data →
      ((s.blk.bit CLK_PSYNC_EN = true ∨ s.blk.fld CLK_STATUS_REF = 1) → Completes (.xb10kWrite data) s (fun b' =>
        b'.fld CLK_MON_SW_REFUSED = 1 ∧ s.blk.PortOnly b' ∧ s.blk.RegsKept b' [CLK_MON_SW_REFUSED.base])) ∧
      ((s.blk.bit CLK_PSYNC_EN = false ∧ s.blk.fld CLK_STATUS_REF ≠ 1) → Completes (.xb10kWrite data) s (fun b' =>
        b'.fld CLK_XCFG_XB_10K = Fld.get CLK_XCFG_XB_10K data ∧ s.blk.PortOnly b' ∧
        s.blk.RegsKept b' [CLK_XCFG_XB_10K.base])))

/-- Clock and alignment requests. -/
def Obligations.ClockPort : Prop :=
  Claims.ClockSwitches ∧ Claims.PhaseAlignment

/-- A write of ADC_REF: for each group, the selection already in force stays with its settled bit; one the group does not
allow, or one of REGION or PHASE while a region is neither DARK nor DARK-FAULTED, is refused; any other comes into force
and must settle, while a calibration point holds the bandgap only at the point's end; without a settled VIN reference the flash-write
window is closed (R317, R353, R354, R364). -/
def Claims.ReferenceSelection : Prop :=
  ∀ (s : State) (data : Word) (g : Nat), g < 4 → s.blk.PlainWrite ADC_REF_EXT_MV.base data →
    let sel := Fld.get (refSel g) data
    let refused := refAllowed g sel = false ∨ (g < 2 ∧ s.blk.everyDark = false)
    Completes (.adcRefWrite data) s (fun b' =>
      b'.fld ADC_REF_EXT_MV = Fld.get ADC_REF_EXT_MV data ∧
      (sel = s.blk.fld (refSel g) → b'.fld (refSel g) = sel ∧ b'.refSettled g = s.blk.refSettled g) ∧
      (sel ≠ s.blk.fld (refSel g) → refused → b'.fld (refSel g) = s.blk.fld (refSel g) ∧ b'.fld ADC_STATUS_REF_REFUSED = 1) ∧
      (sel ≠ s.blk.fld (refSel g) → ¬ refused → b'.fld (refSel g) = sel ∧
        b'.refSettled g = (s.blk.bit ADC_CAL_CTL_CAL_BUSY && s.blk.refSettled g)) ∧
      s.blk.RegsKept b' [ADC_REF_EXT_MV.base, ADC_STATUS_REF_SETTLED.base, THM_STATUS_FLASH_OK.base] ∧
      (Fld.get (refSel 2) data ≠ s.blk.fld (refSel 2) → refAllowed 2 (Fld.get (refSel 2) data) = true →
        s.blk.bit ADC_CAL_CTL_CAL_BUSY = false → b'.adc.vinFresh = 0 ∧ b'.fld THM_STATUS_FLASH_OK = 0) ∧
      b' = { s.blk with
        regs := b'.regs, thm := b'.thm,
        adc := { s.blk.adc with vinFresh := b'.adc.vinFresh, journalWait := b'.adc.journalWait },
        eng := { s.blk.eng with restartReq := b'.eng.restartReq },
        trc := { s.blk.trc with events := b'.trc.events, dropped := b'.trc.dropped } })

/-- A write of ADC_CAL_CTL for a ZERO or a FULL point (R364, R370): VFULL and POINT are stored; with START the point begins when
every region is DARK or DARK-FAULTED, the engine STOPPED or HALTED and no point runs, each group that is not on the bandgap having to
settle on it, and is otherwise refused with CAL_ERR 1; without START nothing runs. -/
def Claims.CalibrationPoints : Prop :=
  ∀ (s : State) (data : Word), s.blk.PlainWrite ADC_CAL_CTL_POINT.base data →
    let may := s.blk.everyDark = true ∧ (s.blk.fld ENG_STATUS_STATE = eStopped ∨ s.blk.fld ENG_STATUS_STATE = eHalted) ∧
      s.blk.bit ADC_CAL_CTL_CAL_BUSY = false
    let stored := fun b' : Block =>
      b'.fld ADC_CAL_CTL_VFULL = Fld.get ADC_CAL_CTL_VFULL data ∧ b'.fld ADC_CAL_CTL_POINT = Fld.get ADC_CAL_CTL_POINT data ∧
      s.blk.RegsKept b' [ADC_CAL_CTL_POINT.base, ADC_STATUS_REF_SETTLED.base, THM_STATUS_FLASH_OK.base]
    let started := fun b' : Block =>
      stored b' ∧ b'.fld ADC_CAL_CTL_CAL_BUSY = 1 ∧
      b'.adc = { s.blk.adc with full := data.getLsbD 30, vfull := Fld.get ADC_CAL_CTL_VFULL data, vinFresh := b'.adc.vinFresh,
                                journalWait := b'.adc.journalWait } ∧
      (s.blk.fld (refSel 2) ≠ 0 → b'.adc.vinFresh = 0 ∧ b'.fld THM_STATUS_FLASH_OK = 0) ∧
      (∀ g, g < 4 → b'.refSettled g = (s.blk.refSettled g && s.blk.fld (refSel g) = 0))
    let refused := fun b' : Block => stored b' ∧ b'.fld ADC_CAL_CTL_CAL_ERR = 1 ∧ s.blk.PortOnly b'
    let idle := fun b' : Block =>
      stored b' ∧ s.blk.PortOnly b' ∧ b'.fld ADC_CAL_CTL_CAL_BUSY = s.blk.fld ADC_CAL_CTL_CAL_BUSY
    (data.getLsbD 31 = true → may →
      Completes (.calZeroPoint data) s started ∧ Completes (.calFullPoint data) s started) ∧
    (data.getLsbD 31 = true → ¬ may →
      Completes (.calZeroPoint data) s refused ∧ Completes (.calFullPoint data) s refused) ∧
    (data.getLsbD 31 = false → Completes (.calZeroPoint data) s idle ∧ Completes (.calFullPoint data) s idle)

/-- The end of a calibration point, with every reference settled (R354, R364, R365): a ZERO point within the spread is stored, one
that is not leaves CAL_ERR 4; a FULL point whose checks pass writes GAIN and OFFSET of every converter and sets CAL_DONE, and the
results are pending for the journal; one that fails leaves its lowest code and no coefficient. Before every reference has settled the
point goes on. -/
def Claims.CalibrationResults : Prop :=
  ∀ (s : State) (means : List CalMean), means.length = 288 → s.blk.bit ADC_CAL_CTL_CAL_BUSY = true →
    let z := s.blk.adc.zero.get (fun _ => 0)
    let err := calError s.blk.adc.vfull s.blk.adc.zeroOk z means
    let settled := ∀ g, g < 4 → s.blk.refSettled g = true
    (¬ settled → Completes (.calPointDone means) s (fun b' => b' = s.blk)) ∧
    let regs := [ADC_CAL_CTL_CAL_BUSY.base, ADC_STATUS_REF_SETTLED.base, THM_STATUS_FLASH_OK.base]
    (settled → s.blk.adc.full = false → (∀ m ∈ means, m.spread ≤ 8) → Completes (.calPointDone means) s (fun b' =>
      b'.fld ADC_CAL_CTL_CAL_BUSY = 0 ∧ b'.adc.zeroOk = true ∧ (∀ c, c < 288 → b'.adc.zero.get (fun _ => 0) c = meanOf means c) ∧
      s.blk.RegsKept b' regs)) ∧
    (settled → s.blk.adc.full = false → (∃ m ∈ means, 8 < m.spread) → Completes (.calPointDone means) s (fun b' =>
      b'.fld ADC_CAL_CTL_CAL_BUSY = 0 ∧ b'.fld ADC_CAL_CTL_CAL_ERR = 4 ∧ b'.adc.zero = s.blk.adc.zero ∧
      s.blk.RegsKept b' regs)) ∧
    (settled → s.blk.adc.full = true → err ≠ 0 → Completes (.calPointDone means) s (fun b' =>
      b'.fld ADC_CAL_CTL_CAL_BUSY = 0 ∧ b'.fld ADC_CAL_CTL_CAL_ERR = err ∧
      b' = { s.blk with regs := b'.regs, thm := b'.thm,
                        adc := { s.blk.adc with vinFresh := b'.adc.vinFresh, journalWait := b'.adc.journalWait } } ∧
      s.blk.RegsKept b' regs)) ∧
    (settled → s.blk.adc.full = true → err = 0 → Completes (.calPointDone means) s (fun b' =>
      b'.fld ADC_CAL_CTL_CAL_BUSY = 0 ∧ b'.fld ADC_CAL_CTL_CAL_DONE = 1 ∧
      (∀ c, c < 288 → ∃ k, calGain s.blk.adc.vfull (z c) (meanOf means c) = some k ∧ (b'.fld ADC_COEF_GAIN c : Int) = k ∧
        b'.fld ADC_COEF_OFFSET c = z c % 2 ^ 16) ∧
      b'.adc.journalDue = true ∧ (s.blk.flashMayStart = false → b'.adc.journalWait = true) ∧
      b'.img = { s.blk.img with pend := s.blk.img.pend ||| 4 }))

/-- The converter calibration. -/
def Obligations.Calibration : Prop :=
  Claims.ReferenceSelection ∧ Claims.CalibrationPoints ∧ Claims.CalibrationResults

/-- Staging (R432): while every region is DARK or DARK-FAULTED and the engine STOPPED or HALTED, a write of IMG_RCADDR names the
entry, and with 0 begins the count of entries; a write of IMG_RCDATA stages the entry at ENTRY and advances ENTRY; a complete staging
whose MINV are in range makes its commit and that of an empty wear log pending; otherwise RC_REFUSED is set. What ends the staging and
what the count takes is the model's choice (log entry 48). -/
def Claims.Recharacterise : Prop :=
  ∀ (s : State) (data : Word),
    (∀ t, s.blk.Calm → s.blk.PlainWrite IMG_RCADDR_ENTRY.base data →
      (s.blk.rcOpen = true → Completes (.hostRegisterWrite t IMG_RCADDR_ENTRY.base data true) s (fun b' =>
        b'.fld IMG_RCADDR_ENTRY = Fld.get IMG_RCADDR_ENTRY data ∧
        b'.img = { s.blk.img with rcCount := if Fld.get IMG_RCADDR_ENTRY data = 0 then some 0 else s.blk.img.rcCount } ∧
        s.blk.PortOnly { b' with img := s.blk.img } ∧ s.blk.RegsKept b' [IMG_RCADDR_ENTRY.base])) ∧
      (s.blk.rcOpen = false → Completes (.hostRegisterWrite t IMG_RCADDR_ENTRY.base data true) s (fun b' =>
        b'.fld IMG_JRNL_RC_REFUSED = 1 ∧ s.blk.PortOnly b' ∧ s.blk.RegsKept b' [IMG_JRNL_RC_REFUSED.base]))) ∧
    (s.blk.PlainWrite IMG_RCDATA_ENTRY_DATA.base data →
      (s.blk.rcOpen = true → Completes (.rcDataWrite data) s (fun b' =>
        b'.img.rc.get (fun _ => 0) (s.blk.fld IMG_RCADDR_ENTRY) = data.toNat % 65536 ∧ b'.img.rcHold = true ∧
        (∀ e, e ≠ s.blk.fld IMG_RCADDR_ENTRY → b'.img.rc.get (fun _ => 0) e = s.blk.img.rc.get (fun _ => 0) e) ∧
        b'.fld IMG_RCADDR_ENTRY = (s.blk.fld IMG_RCADDR_ENTRY + 1) % 2 ^ (IMG_RCADDR_ENTRY.hi + 1 - IMG_RCADDR_ENTRY.lo) ∧
        s.blk.RegsKept b' [IMG_RCADDR_ENTRY.base, TRC_STATUS_FILL.base])) ∧
      (s.blk.rcOpen = false → Completes (.rcDataWrite data) s (fun b' =>
        b'.fld IMG_JRNL_RC_REFUSED = 1 ∧ s.blk.PortOnly b' ∧ s.blk.RegsKept b' [IMG_JRNL_RC_REFUSED.base]))) ∧
    (s.blk.PlainWrite IMG_CTL_HOLD_DARK.base data → data.getLsbD 31 = true → s.blk.bit IMG_STATUS_SAFE = false →
      (s.blk.rcOpen = true → s.blk.img.staged? = true → Completes (.rcCommit data) s (fun b' =>
        b'.img = { s.blk.img with rcDue := true, pend := s.blk.img.pend ||| 9 } ∧
        s.blk.RegsKept b' [IMG_CTL_HOLD_DARK.base])) ∧
      ((s.blk.rcOpen = false ∨ s.blk.img.staged? = false) → Completes (.rcCommit data) s (fun b' =>
        b'.fld IMG_JRNL_RC_REFUSED = 1 ∧ s.blk.PortOnly b' ∧
        s.blk.RegsKept b' [IMG_CTL_HOLD_DARK.base, IMG_JRNL_RC_REFUSED.base])))

/-- HOLD_DARK (R420): outside minimum safe mode it is only stored; set in it, every region in RUN begins its Dusk. -/
def Claims.HoldDark : Prop :=
  ∀ (s : State) (t : Nat) (data : Word), s.blk.Calm → s.blk.PlainWrite IMG_CTL_HOLD_DARK.base data → data.getLsbD 31 = false →
    (s.blk.bit IMG_STATUS_SAFE = false → Completes (.holdDarkWrite t data) s (fun b' =>
      b'.bit IMG_CTL_HOLD_DARK = data.getLsbD 0 ∧ s.blk.PortOnly b' ∧ s.blk.RegsKept b' [IMG_CTL_HOLD_DARK.base])) ∧
    (s.blk.bit IMG_STATUS_SAFE = true → s.blk.bit IMG_CTL_HOLD_DARK = false → data.getLsbD 0 = true →
      Completes (.holdDarkWrite t data) s (fun b' => b'.bit IMG_CTL_HOLD_DARK = true ∧
        (∀ n, n < 256 → s.blk.st n = sRun → b'.st n = sDusk ∧ (b'.R n).stage = 15) ∧
        (∀ n, n < 256 → (s.blk.st n = sDark ∨ s.blk.st n = sFaulted) → b'.st n = s.blk.st n) ∧ b'.flt = s.blk.flt ∧
        b'.img = s.blk.img))

/-- PMB_CTL.START queues one transfer and sets BUSY, or is refused with nothing queued (R435). -/
def Claims.PmbusHostTransfer : Prop :=
  ∀ (s : State) (data : Word), s.blk.PlainWrite PMB_CTL_CMD.base data → data.getLsbD 31 = true →
    (s.blk.pmbRefused data = false → Completes (.pmbHostTransfer data) s (fun b' =>
      b'.fld PMB_STATUS_BUSY = 1 ∧ b'.img.xfer = some (data, s.blk.fld PMB_DATA_DATA) ∧
      b'.img = { s.blk.img with xfer := b'.img.xfer, tries := b'.img.tries } ∧
      s.blk.RegsKept b' [PMB_CTL_CMD.base, PMB_STATUS_BUSY.base])) ∧
    (s.blk.pmbRefused data = true → Completes (.pmbHostTransfer data) s (fun b' =>
      b'.fld PMB_STATUS_REFUSED = 1 ∧ s.blk.PortOnly b' ∧ s.blk.RegsKept b' [PMB_CTL_CMD.base, PMB_STATUS_REFUSED.base]))

/-- The image, journal and PMBus requests of the host. -/
def Obligations.ImagePort : Prop :=
  Claims.Recharacterise ∧ Claims.HoldDark ∧ Claims.PmbusHostTransfer

/-- The recorder's modes (R478, R486): RING starts a recording; ONESHOT, from a halt, discards trace memory and copies the
STATE record, even where a one-shot recording runs, and is otherwise refused; OFF and STOP end a recording at the next boundary. -/
def Claims.RecorderModes : Prop :=
  ∀ (s : State) (data : Word), s.blk.PlainWrite TRC_CTL_MODE.base data →
    let mode := Fld.get TRC_CTL_MODE data
    (mode = modeRing → data.getLsbD 0 = false → s.blk.img.rcHold = false →
      ¬ (s.blk.fld TRC_CTL_MODE = modeRing ∧ s.blk.recordingOn = true) → Completes (.trcRing data) s (fun b' =>
        b'.fld TRC_STATUS_RECORDING = 1 ∧ b'.fld TRC_CTL_MODE = modeRing ∧ b'.trc.key = true ∧ b'.trc.mem = s.blk.trc.mem ∧
        s.blk.RegsKept b' [TRC_CTL_MODE.base, TRC_STATUS_RECORDING.base])) ∧
    (mode = modeOneshot → data.getLsbD 0 = false → s.blk.img.rcHold = false →
      (s.blk.fld ENG_STATUS_STATE = eHalted → Completes (.trcOneshot data) s (fun b' =>
        b'.trc.mem = [] ∧ b'.trc.copying = true ∧ b'.fld TRC_CTL_MODE = modeOneshot ∧ b'.fld TRC_STATUS_RECORDING = 0 ∧
        b'.fld TRC_STATUS_FILL = 0 ∧ s.blk.RegsKept b' [TRC_CTL_MODE.base, TRC_STATUS_RECORDING.base])) ∧
      (s.blk.fld ENG_STATUS_STATE ≠ eHalted → Completes (.trcOneshot data) s (fun b' =>
        b'.fld TRC_STATUS_REFUSED = 1 ∧ b'.trc.mem = s.blk.trc.mem ∧
        s.blk.RegsKept b' [TRC_CTL_MODE.base, TRC_STATUS_REFUSED.base]))) ∧
    (mode = 0 → s.blk.recordingOn = true → s.blk.fld TRC_CTL_MODE ≠ 0 → Completes (.trcModeOff data) s (fun b' =>
      b'.trc.stopDue = true ∧ b'.fld TRC_CTL_MODE = 0 ∧ b'.fld TRC_STATUS_RECORDING = s.blk.fld TRC_STATUS_RECORDING ∧
      s.blk.RegsKept b' [TRC_CTL_MODE.base])) ∧
    (data.getLsbD 0 = true → s.blk.recordingOn = true → mode = s.blk.fld TRC_CTL_MODE → Completes (.trcStop data) s (fun b' =>
      b'.trc.stopDue = true ∧ b'.fld TRC_CTL_MODE = mode ∧ s.blk.RegsKept b' [TRC_CTL_MODE.base]))

/-- TRC_TICKSET_HI sets TICKNO from both halves while HALTED, and TRC_FLAGS the slice flags, of which those set show in ENG_ARITH; at
any other time each is ignored and TRC_STATUS.REFUSED set (R217, R227, R492, R493). -/
def Claims.HaltedTraceWrites : Prop :=
  ∀ (s : State) (data : Word),
    (s.blk.PlainWrite TRC_TICKSET_HI_TICK_HI.base data →
      (s.blk.fld ENG_STATUS_STATE = eHalted → Completes (.trcTickset data) s (fun b' =>
        b'.tickno = (s.blk.trc.setLo + 2 ^ 32 * data.toNat) % 2 ^ 64 ∧ s.blk.PortOnly b' ∧
        s.blk.RegsKept b' [ENG_TICKNO_LO_VAL.base, ENG_TICKNO_HI_VAL.base])) ∧
      (s.blk.fld ENG_STATUS_STATE ≠ eHalted → Completes (.trcTickset data) s (fun b' =>
        b'.fld TRC_STATUS_REFUSED = 1 ∧ s.blk.PortOnly b' ∧ s.blk.RegsKept b' [TRC_STATUS_REFUSED.base]))) ∧
    (s.blk.PlainWrite TRC_FLAGS_SLICE_FLAGS.base data →
      (s.blk.fld ENG_STATUS_STATE = eHalted → Completes (.trcFlagsWrite data) s (fun b' =>
        (∀ q, q < 4 → b'.eng.inv.getLsbD q = data.getLsbD (2 * q) ∧ b'.eng.ovf.getLsbD q = data.getLsbD (2 * q + 1)) ∧
        (∀ q, q < 4 → (b'.bit (arithInv q) = (s.blk.bit (arithInv q) || data.getLsbD (2 * q))) ∧
          (b'.bit (arithOvf q) = (s.blk.bit (arithOvf q) || data.getLsbD (2 * q + 1)))) ∧
        b'.eng = { s.blk.eng with restartReq := b'.eng.restartReq, inv := b'.eng.inv, ovf := b'.eng.ovf } ∧
        s.blk.RegsKept b' [ENG_ARITH_INV0.base])) ∧
      (s.blk.fld ENG_STATUS_STATE ≠ eHalted → Completes (.trcFlagsWrite data) s (fun b' =>
        b'.fld TRC_STATUS_REFUSED = 1 ∧ b'.eng.inv = s.blk.eng.inv ∧ b'.eng.ovf = s.blk.eng.ovf ∧
        s.blk.RegsKept b' [TRC_STATUS_REFUSED.base])))

/-- TRC_REPLAY.START (R488): with a STATE record and every record after it up to an END record in trace memory, a halt, the recorder
OFF and the active array count of the record, the replay starts from the first STATE record, on the outputs last committed; otherwise
it is refused. -/
def Claims.ReplayStart : Prop :=
  ∀ (s : State) (data : Word), s.blk.PlainWrite TRC_REPLAY_START.base data → data.getLsbD 31 = true →
    (∀ (r : TrcRec) (rest : List TrcRec) (x : TrcState), fromState s.blk.trc.mem = r :: rest → r.state = some x →
      s.blk.fld ENG_STATUS_STATE = eHalted → s.blk.fld TRC_CTL_MODE = 0 → s.blk.bit TRC_STATUS_REPLAYABLE = true →
      s.blk.arrays = x.arrays →
      Completes (.trcReplayStart data) s (fun b' =>
        b'.fld TRC_REPLAY_BUSY = 1 ∧ b'.fld TRC_REPLAY_MISMATCH = 0 ∧ b'.fld TRC_REPLAY_FIRST = 0 ∧
        b'.tickno = x.tickno % 2 ^ 64 ∧ b'.trc.rest = rest ∧ b'.trc.cur = none ∧ b'.trc.spoiled = false ∧
        b'.key = BitVec.ofNat 64 x.seed ^^^ x.chip ∧ b'.trc.shadow = s.blk.eng.outCom ∧ b'.eng.outCom = s.blk.eng.outCom)) ∧
    ((∀ (r : TrcRec) (rest : List TrcRec) (x : TrcState), fromState s.blk.trc.mem = r :: rest → r.state = some x →
        ¬ (s.blk.fld ENG_STATUS_STATE = eHalted ∧ s.blk.fld TRC_CTL_MODE = 0 ∧ s.blk.bit TRC_STATUS_REPLAYABLE = true ∧
           s.blk.arrays = x.arrays)) →
      Completes (.trcReplayStart data) s (fun b' => b'.fld TRC_REPLAY_REFUSED = 1 ∧ b'.trc.rest = s.blk.trc.rest ∧
        b'.eng.sm = s.blk.eng.sm ∧ s.blk.RegsKept b' [TRC_REPLAY_START.base]))

/-- The recorder and replay requests of the host. -/
def Obligations.TracePort : Prop :=
  Claims.RecorderModes ∧ Claims.HaltedTraceWrites ∧ Claims.ReplayStart

/-! The fault collector. -/

/-- A class R condition reported while its source is enabled and not yet raised: the flag is set, the instance is pending, the
newest record of the log names it, and the log is pending for the journal (R376, R377, R390); a source that only reports
changes nothing else. A disabled source raises nothing, though its flag is set. -/
def Claims.ReportedCondition : Prop :=
  ∀ (b : Block) (src index : Nat) (f : Fld) (per : Bool), flagOf src = some (f, per) → (per = true → index < 256) → b.Mild src →
    b.raisedInst src index = false →
    let b' := b.report src index
    b'.fld f (if per then index else 0) = 1 ∧ b.Raised b' src index ∧ b.ReportOnly b' ∧
    b.RegsKept b' [f.base + 4 * (if per then index else 0)] ∧
    (b.srcEnabled src = true →
      b'.flt.insts = (src, index) :: b.flt.insts ∧ b'.flt.log.head?.map (·.src) = some src ∧
      b'.flt.log.head?.map (·.index) = some index ∧ b'.img.pend = b.img.pend ||| 2) ∧
    (b.srcEnabled src = false → b'.flt = b.flt)

/-- The reactions that act while the service domain has a clock (R337, R384, R385, R399): with Block reset and no chip-reset request a
warm reset starts, unless it would be the third within 60 s, which requests a chip reset in its place and sets ESCALATED; Chip-reset
request drives CRST_REQ_N. Without that clock the source is pending and its reaction waits. -/
def Claims.ActingReactions : Prop :=
  ∀ (b : Block) (src index : Nat), isClassS src = false → b.srcEnabled src = true → b.pendingSrc src = false → b.flt.step = 0 →
    (b.clk.svcStopped = true → (b.raise src index).flt.waiting = b.flt.waiting ++ [(src, index)] ∧
      (b.raise src index).raisedInst src index = true ∧ b.ReportOnly (b.raise src index)) ∧
    (b.clk.svcStopped = false →
    (b.reaction src = 4 → (b.raise src index).flt.chipReq = true ∧ (b.raise src index).flt.step = 0) ∧
    (b.reaction src = 3 → b.mayRestart = true →
      let recent := b.flt.resets.filter (fun t => b.slo < t + 480000000)
      (recent.length < 2 → (b.raise src index).flt.step = 1 ∧ (b.raise src index).flt.resets = b.slo :: recent ∧
        (b.raise src index).eng.run = .none) ∧
      (2 ≤ recent.length → (b.raise src index).flt.step = 0 ∧ (b.raise src index).flt.chipReq = true ∧
        (b.raise src index).fld FLT_STATUS_ESCALATED = 1)))

/-- Conditions reported, and what their reactions set off. -/
def Obligations.Conditions : Prop :=
  Claims.ReportedCondition ∧ Claims.ActingReactions

/-- FLT_CLEAR (R387): an instance that its rule allows is cleared and no other; a refused one stays raised and sets
CLR_REFUSED; INDEX 0x7FF clears no instance of another source, and leaves one of its own only with CLR_REFUSED set. -/
def Claims.FaultClear : Prop :=
  ∀ (s : State) (t : Nat) (data : Word), s.blk.Calm → s.blk.PlainWrite FLT_CLEAR_SRC.base data →
    (∀ e ∈ s.blk.flt.insts, e.2 < 2048) →
    let src := Fld.get FLT_CLEAR_SRC data
    let index := Fld.get FLT_CLEAR_INDEX data
    let b := { s.blk with now := max s.blk.now t }
    (index ≠ 0x7FF → s.blk.raisedInst src index = true →
      (b.clearAllowed src index = true → Completes (.fltClear t data) s (fun b' =>
        b'.flt.insts = s.blk.flt.insts.filter (fun e => e != (src, index)) ∧ b'.flt.log = s.blk.flt.log ∧
        b'.red = s.blk.red ∧ b'.adc = s.blk.adc ∧ b'.hoop = s.blk.hoop)) ∧
      (b.clearAllowed src index = false → Completes (.fltClear t data) s (fun b' =>
        b'.fld FLT_STATUS_CLR_REFUSED = 1 ∧ b'.flt = s.blk.flt ∧ s.blk.PortOnly b' ∧
        s.blk.RegsKept b' [FLT_STATUS_CLR_REFUSED.base]))) ∧
    (index = 0x7FF → Completes (.fltClear t data) s (fun b' =>
      (∀ e, e.1 ≠ src → (e ∈ b'.flt.insts ↔ e ∈ s.blk.flt.insts)) ∧
      (∀ e ∈ b'.flt.insts, e ∈ s.blk.flt.insts) ∧
      ((∃ e ∈ b'.flt.insts, e.1 = src) → b'.fld FLT_STATUS_CLR_REFUSED = 1)))

/-- A write of 1 to W1C bits that stand for no source stores the word's writable fields and clears the bits (Table 0-6), those of
chapter 5 with the next boundary (R161). A write of THM_STATUS.STOP clears the stop, and the instances it stands for, while every guard
temperature is below THROTTLE; otherwise a pending stop stays and CLR_REFUSED is set (R315, R387). -/
def Claims.FlagWrites : Prop :=
  ∀ (s : State) (t : Nat), s.blk.Calm →
    (∀ (a : Nat) (data : Word) (d : RegDef), a % 4 = 0 → ownRule a = false → s.blk.PlainWrite a data → findReg a = some d →
      (∀ i, i < 32 → (data &&& d.w1c).getLsbD i = true → flagSource a i = none) →
      let stored := (s.blk.reg a &&& ~~~(d.rw ||| d.rws)) ||| (data &&& (d.rw ||| d.rws))
      (clearsLater a = false → Completes (.flagW1cClear t a data) s (fun b' =>
        b'.reg a = stored &&& ~~~(data &&& d.w1c) ∧ s.blk.PortOnly b' ∧ s.blk.RegsKept b' [a])) ∧
      (clearsLater a = true → Completes (.flagW1cClear t a data) s (fun b' =>
        b'.reg a = stored ∧ data &&& d.w1c &&& ~~~(b'.clearDue.get (fun _ => 0) a) = 0 ∧
        s.blk.PortOnly { b' with clearDue := s.blk.clearDue } ∧ s.blk.RegsKept b' [a]))) ∧
    (s.blk.bit TRC_REPLAY_BUSY = false →
      (s.blk.allCool = true → Completes (.thmStopClear t 0x40#32) s (fun b' =>
        b'.fld THM_STATUS_STOP = 0 ∧ b'.flt.insts = s.blk.flt.insts.filter (fun e => e.1 != srcTHM_STOP) ∧ b'.thm = s.blk.thm)) ∧
      (s.blk.allCool = false → s.blk.standingOf srcTHM_STOP ≠ [] → Completes (.thmStopClear t 0x40#32) s (fun b' =>
        b'.fld FLT_STATUS_CLR_REFUSED = 1 ∧ b'.fld THM_STATUS_STOP = s.blk.fld THM_STATUS_STOP ∧ s.blk.PortOnly b' ∧
        s.blk.RegsKept b' [FLT_STATUS_CLR_REFUSED.base])) ∧
      (s.blk.allCool = false → s.blk.standingOf srcTHM_STOP = [] → Completes (.thmStopClear t 0x40#32) s (fun b' =>
        s.blk.PortOnly b' ∧ s.blk.RegsKept b' [])))

/-- A write of 1 to one W1C bit that stands for a fault source (R387): of a flag for each region, the region's instance is cleared; of a
flag for the block, every instance of the source that its rule allows is cleared, and one that stays leaves CLR_REFUSED set. The bit clears with the last instance for which it stands, and at once, with the
instances as they were, where none stands; no instance of another source changes. -/
def Claims.SourceFlagWrites : Prop :=
  ∀ (s : State) (t a i src : Nat) (o : Option Nat) (d : RegDef), s.blk.Calm → a % 4 = 0 → ownRule a = false → i < 32 →
    findReg a = some d → d.w1c.getLsbD i = true → flagSource a i = some (src, o) → s.blk.bit TRC_REPLAY_BUSY = false →
    let b := { s.blk with now := max s.blk.now t }
    let others := fun b' : Block => ∀ e, e.1 ≠ src → (e ∈ b'.flt.insts ↔ e ∈ s.blk.flt.insts)
    (∀ n, o = some n →
      (s.blk.raisedInst src n = true → Completes (.flagW1cClear t a (1#32 <<< i)) s (fun b' =>
        (b'.reg a).getLsbD i = false ∧ b'.flt.insts = s.blk.flt.insts.filter (fun e => e != (src, n)))) ∧
      (s.blk.standing src n = false → Completes (.flagW1cClear t a (1#32 <<< i)) s (fun b' =>
        (b'.reg a).getLsbD i = false ∧ b'.flt = s.blk.flt))) ∧
    (o = none → s.blk.standingOf src ≠ [] →
      ((∀ n, b.clearAllowed src n = true) → Completes (.flagW1cClear t a (1#32 <<< i)) s (fun b' =>
        (b'.reg a).getLsbD i = false ∧ b'.flt.insts = s.blk.flt.insts.filter (fun e => e.1 != src))) ∧
      ((∀ n, b.clearAllowed src n = false) → Completes (.flagW1cClear t a (1#32 <<< i)) s (fun b' =>
        (b'.reg a).getLsbD i = (s.blk.reg a).getLsbD i ∧ b'.fld FLT_STATUS_CLR_REFUSED = 1 ∧ b'.flt = s.blk.flt)) ∧
      Completes (.flagW1cClear t a (1#32 <<< i)) s others) ∧
    (o = none → s.blk.standingOf src = [] → src ≠ srcTHM_STOP → Completes (.flagW1cClear t a (1#32 <<< i)) s (fun b' =>
      (b'.reg a).getLsbD i = false ∧ b'.flt = s.blk.flt))

/-- Clears by number and by flag. -/
def Obligations.Clearing : Prop :=
  Claims.FaultClear ∧ Claims.FlagWrites ∧ Claims.SourceFlagWrites

/-- FLT_CTL.BRESET starts a block warm reset: step 1 of Table 13-7, with the engine stopped, the tick dropped and its memories
and committed outputs kept, the pending instances kept, the hint state cleared, and the reset not counted (R229, R385, R398, R403,
R513). One that may not start is logged and not counted (R384, R399, R421, R425), in a record whose source and instance are free values
(the model's choice: log entry 79). With the bit 0 nothing happens. -/
def Claims.WarmResetRequest : Prop :=
  ∀ (s : State) (t : Nat) (data : Word), s.blk.Calm → s.blk.PlainWrite FLT_CTL_BRESET.base data →
    (data.getLsbD 0 = true → s.blk.mayRestart = true → Completes (.breset t data) s (fun b' =>
      b'.flt = { s.blk.flt with step := 1, startedAt := max s.blk.now t } ∧ b'.eng.run = .none ∧ b'.eng.smPend = [] ∧
      b'.eng.sm = s.blk.eng.sm ∧ b'.eng.wm = s.blk.eng.wm ∧ b'.eng.outCom = s.blk.eng.outCom ∧
      b'.eng.outBuf = s.blk.eng.outCom ∧ b'.hint = [] ∧ b'.hintQ = [] ∧ b'.fld ENG_TICKNO_LO_VAL = 0 ∧
      b'.hostRead ENG_TICKNO_HI_VAL.base = 0 ∧ b'.fld ENG_MADDR_BUSY = 0 ∧ b'.fld TRC_STATUS_RECORDING = 0 ∧
      b'.red = s.blk.red ∧ b'.img.accepted = s.blk.img.accepted)) ∧
    (data.getLsbD 0 = true → s.blk.mayRestart = false → Completes (.breset t data) s (fun b' =>
      (∃ r, b'.flt = { s.blk.flt with log := (r :: s.blk.flt.log).take 64 } ∧ r.tickLo = s.blk.fld ENG_TICKNO_LO_VAL ∧
        r.src = Config.bresetLog.1.toNat ∧ r.index = Config.bresetLog.2.toNat) ∧
      s.blk.ReportOnly b' ∧ s.blk.RegsKept b' [])) ∧
    (data.getLsbD 0 = false → Completes (.breset t data) s (fun b' => s.blk.PortOnly b' ∧ s.blk.RegsKept b' []))

/-- The collector's parity check counts an SLO cycle, for the timers of the auxiliary converters too; with every word of even parity
and no upset nothing else happens, and a single upset bit of a word raises COLL_PARITY, whose reaction is a chip-reset request (R356,
R382, R514). -/
def Claims.ParityCheck : Prop :=
  ∀ (s : State) (t : Nat), s.blk.Calm → s.blk.aonUp = true → s.blk.clkReady kSLO = true → s.blk.cfgParityOk = true →
    Completes (.collParityCheck t []) s (fun b' =>
      b' = { s.blk with now := max s.blk.now t, slo := s.blk.slo + 1,
                        adc := { s.blk.adc with auxBusy := b'.adc.auxBusy, auxCfg := b'.adc.auxCfg, auxCount := b'.adc.auxCount,
                                                auxEvAt := b'.adc.auxEvAt } } ∧
      ∀ i, i < 16 → let c := s.blk.adc.auxCount.get (fun _ => 0) i + 1
        b'.adc.auxCount.get (fun _ => 0) i = (if max 7 (s.blk.auxFld ADC_AUXTRIG_PER i) + 1 ≤ c then 0 else c)) ∧
    ∀ u : BitUpset, u.source < 128 → u.bit < 32 → s.blk.pendingSrc srcCOLL_PARITY = false →
      Completes (.collParityCheck t [u]) s (fun b' =>
        b'.raisedInst srcCOLL_PARITY 0 = true ∧ b'.flt.chipReq = true ∧ b'.slo = s.blk.slo + 1)

/-- The warm reset request and the collector parity check. -/
def Obligations.ResetAndParity : Prop :=
  Claims.WarmResetRequest ∧ Claims.ParityCheck

/-- A class S event of one region's over-voltage or short takes that region to DARK-FAULTED with its cause and its headers open, and
raises the instance; its outputs are 0 at once where the engine does not run, and else with its next commit (R35, R152, R314, R380,
Table 13-2). -/
def Claims.RegionEvents : Prop :=
  ∀ (s : State) (t n : Nat), n < 256 → s.blk.Calm → s.blk.thm.stopStep < 3 →
    (∀ src, (src = srcOV ∨ src = srcSHORT) → s.blk.reaction src < 3 →
      Completes (.classSEvent t src n) s (fun b' =>
        b'.st n = sFaulted ∧ b'.fld REG_PSTATE_CAUSE n = (if src = srcOV then causeOv else causeShort) ∧
        (b'.R n).hdrEn = 0 ∧ b'.raisedInst src n = true ∧
        (s.blk.engineRunning = false → (b'.R n).issue = 0 ∧ (b'.R n).floor = 0 ∧ b'.fld REG_FIDX_PERMIT n = 0) ∧
        (s.blk.engineRunning = true → (b'.R n).issue = (s.blk.R n).issue ∧ (b'.R n).floor = (s.blk.R n).floor ∧
          b'.fld REG_FIDX_PERMIT n = s.blk.fld REG_FIDX_PERMIT n) ∧
        (∀ m, m < 256 → m ≠ n → b'.st m = s.blk.st m ∧ (b'.R m).hdrEn = (s.blk.R m).hdrEn)))

/-- A block-wide class S event takes every region that is not DARK-FAULTED to DARK, with its headers open, ends a thermal stop, and
raises its instance; a stop of SLO and a loss of the active phase loop are those of the clock sources (R313, R316, R330, R333, R380,
Table 13-2). -/
def Claims.BlockEvents : Prop :=
  ∀ (s : State) (t i : Nat), s.blk.Calm →
    (∀ src, (src = srcCOLL_PARITY ∨ (src = srcHW_TRIP ∧ s.blk.reaction srcHW_TRIP ≠ 3)) → Completes (.classSEvent t src i) s (fun b' =>
      b'.raisedInst src 0 = true ∧ b'.thm.stopStep = 0 ∧
      (∀ n, n < 256 → b'.st n = (if s.blk.st n = sFaulted then sFaulted else sDark) ∧
        (s.blk.st n ≠ sFaulted → (b'.R n).hdrEn = 0)) ∧
      (s.blk.pendingSrc srcCOLL_PARITY = false → src = srcCOLL_PARITY → b'.flt.chipReq = true))) ∧
    exec (.classSEvent t srcSLO_STOP i) s = exec (.sloStop t) s ∧
    exec (.classSEvent t srcPH_ACTIVE_LOSS i) s = exec (.phActiveLoss t) s

/-- Class S events at the collector. -/
def Obligations.RegionFault : Prop :=
  Claims.RegionEvents ∧ Claims.BlockEvents

/-! Hints and the activity counter input. -/

/-- A FORECAST of a group with regions sets the group's LEVEL, lead and crossing and counts the hint, at once while the engine clock
runs (the model's choice: log entry 61); no other group's state changes; and a sleeping region of the group whose exit fits starts its
wait, the earlier of two standing (R31, R142, R229). -/
def Obligations.Forecast : Prop :=
  ∀ (s : State) (t : Nat) (h : BitVec 64), s.blk.Calm → s.blk.hintReady = true → hintField h 63 60 = 1 → h.toNat % 2 ^ 31 = 0 →
    s.blk.bit IMG_STATUS_SAFE = false → (∃ n, n < 256 ∧ s.blk.groupOf n = some (hintGroup h)) →
    Completes (.forecast t h) s (fun b' =>
      let now := max s.blk.now t
      (s.blk.eng.clockStopped = false →
        b'.H (hintGroup h) = { (s.blk.H (hintGroup h)) with level := hintField h 54 47, fcAt := some now, fcB := none,
                                                              lead := hintField h 46 31 * 10, leadAt := some now, leadB := none,
                                                              count := (s.blk.H (hintGroup h)).count + 1 } ∧
        b'.hintQ = s.blk.hintQ) ∧
      (s.blk.eng.clockStopped = true → b'.hint = s.blk.hint ∧ b'.hintQ = s.blk.hintQ ++ [(now, s.blk.slo, h)] ∧
        b'.eng.restartReq = true) ∧
      (∀ g, g ≠ hintGroup h → b'.H g = s.blk.H g) ∧
      (∀ n, n < 256 → s.blk.groupOf n ≠ some (hintGroup h) → b'.R n = s.blk.R n ∧ b'.st n = s.blk.st n) ∧
      (∀ n, n < 256 → s.blk.groupOf n = some (hintGroup h) → s.blk.wakeIgnored n = false →
        (s.blk.st n = sDoze ∨ s.blk.st n = sNap ∨ s.blk.st n = sDark ∨ s.blk.st n = sPrimed) →
        s.blk.exitLatency n (s.blk.st n) s.blk.clk.stoppedCol + 530 < hintField h 46 31 * 10 →
        b'.st n = s.blk.st n ∧
        let due := s.blk.slo + (hintField h 46 31 * 10 - s.blk.exitLatency n (s.blk.st n) s.blk.clk.stoppedCol - 530) * 76 / 10000
        (b'.R n).exitAt = some (match (s.blk.R n).exitAt with | some c => min c due | none => due)))

/-- Barrier hints: an ENTER of an open ID leaves the hint state as it is but for the count of hints (R229); of another it opens, closing
the earliest of four and counting BAR_OVERFLOW (R230); an EXIT closes its barrier, or counts UNMATCHED, and in both cases sets the lead
remaining and the time since the last exit (R230). At most four stay open, and no other group's state changes. That the hint state
follows at the acceptance, with its times, is the model's choice (log entry 61); for hints that arrive while the engine clock stands
see OtherHints. -/
def Obligations.Barriers : Prop :=
  ∀ (s : State) (t : Nat) (h : BitVec 64), s.blk.Calm → s.blk.hintReady = true → s.blk.bit IMG_STATUS_SAFE = false →
    s.blk.eng.clockStopped = false →
    (∃ n, n < 256 ∧ s.blk.groupOf n = some (hintGroup h)) → (s.blk.H (hintGroup h)).openBars.length ≤ 4 →
    let g := hintGroup h
    let id := hintField h 54 47
    let bars := (s.blk.H g).openBars
    let isOpen := ∃ e ∈ bars, e.1 = id
    let now := max s.blk.now t
    (hintField h 63 60 = 2 → h.toNat % 2 ^ 47 = 0 → Completes (.barrierEnter t h) s (fun b' =>
      (isOpen → b'.H g = { (s.blk.H g) with count := (s.blk.H g).count + 1 } ∧
        b'.fld ENG_HINTSTAT_BAR_OVERFLOW = s.blk.fld ENG_HINTSTAT_BAR_OVERFLOW) ∧
      (¬ isOpen → bars.length < 4 → (b'.H g).openBars = bars ++ [(id, s.blk.slo)] ∧
        b'.fld ENG_HINTSTAT_BAR_OVERFLOW = s.blk.fld ENG_HINTSTAT_BAR_OVERFLOW) ∧
      (¬ isOpen → bars.length = 4 → (b'.H g).openBars = bars.drop 1 ++ [(id, s.blk.slo)] ∧
        b'.fld ENG_HINTSTAT_BAR_OVERFLOW = (s.blk.fld ENG_HINTSTAT_BAR_OVERFLOW + 1) % 256) ∧
      (b'.H g).openBars.length ≤ 4 ∧ (∀ k, k ≠ g → b'.H k = s.blk.H k) ∧ s.blk.RegsKept b' [ENG_HINTSTAT_UNMATCHED.base] ∧
      b'.rgn = s.blk.rgn ∧ b'.ph = s.blk.ph)) ∧
    (hintField h 63 60 = 3 → h.toNat % 2 ^ 31 = 0 → Completes (.barrierExit t h) s (fun b' =>
      (b'.H g).openBars = bars.filter (fun e => e.1 != id) ∧
      (b'.H g).lead = hintField h 46 31 * 10 ∧ (b'.H g).leadAt = some now ∧ (b'.H g).exAt = some now ∧
      (isOpen → b'.fld ENG_HINTSTAT_UNMATCHED = s.blk.fld ENG_HINTSTAT_UNMATCHED) ∧
      (¬ isOpen → b'.fld ENG_HINTSTAT_UNMATCHED = (s.blk.fld ENG_HINTSTAT_UNMATCHED + 1) % 256) ∧
      (∀ k, k ≠ g → b'.H k = s.blk.H k)))

/-- A barrier open for 80,000 SLO cycles is closed without an exit and counted in BAR_STALE; nothing else changes, lead
remaining among it; one open for less stays (R231). -/
def Obligations.StaleBarrier : Prop :=
  ∀ (s : State) (g id : Nat), g < 32 →
    ((∃ e ∈ (s.blk.H g).openBars, e.1 = id ∧ e.2 + 80000 ≤ s.blk.slo) → Completes (.barrierStale g id) s (fun b' =>
      b'.H g = { (s.blk.H g) with openBars := (s.blk.H g).openBars.filter (fun e => e.1 != id) } ∧
      b'.fld ENG_HINTSTAT_BAR_STALE = (s.blk.fld ENG_HINTSTAT_BAR_STALE + 1) % 256 ∧
      (∀ k, k ≠ g → b'.H k = s.blk.H k) ∧ b' = { s.blk with regs := b'.regs, hint := b'.hint } ∧
      s.blk.RegsKept b' [ENG_HINTSTAT_BAR_STALE.base])) ∧
    ((∀ e ∈ (s.blk.H g).openBars, e.1 = id → s.blk.slo < e.2 + 80000) →
      Completes (.barrierStale g id) s (fun b' => b' = s.blk))

/-- PHASE_TAG sets the group's tag and LATENCY its wake limit, and each counts the hint; Prefill and Decode wake the group's
regions in DOZE or NAP, as does a limit below the exit latency of their state (R137, R138, R229). -/
def Claims.TagAndLatency : Prop :=
  ∀ (s : State) (t : Nat) (h : BitVec 64), s.blk.Calm → s.blk.hintReady = true → s.blk.bit IMG_STATUS_SAFE = false →
    s.blk.eng.clockStopped = false →
    (∃ n, n < 256 ∧ s.blk.groupOf n = some (hintGroup h)) →
    let g := hintGroup h
    let asleep (n : Nat) : Prop := n < 256 ∧ s.blk.groupOf n = some g ∧ s.blk.wakeIgnored n = false ∧
      (s.blk.st n = sDoze ∨ s.blk.st n = sNap)
    (hintField h 63 60 = 4 → hintField h 54 53 < 3 → h.toNat % 2 ^ 53 = 0 → Completes (.phaseTag t h) s (fun b' =>
      b'.H g = { (s.blk.H g) with tag := hintField h 54 53, count := (s.blk.H g).count + 1 } ∧ (∀ k, k ≠ g → b'.H k = s.blk.H k) ∧
      (0 < hintField h 54 53 → ∀ n, asleep n → b'.st n = sWaking) ∧
      (hintField h 54 53 = 0 → b'.rgn = s.blk.rgn ∧ s.blk.RegsKept b' []))) ∧
    (hintField h 63 60 = 5 → h.toNat % 2 ^ 39 = 0 → Completes (.latency t h) s (fun b' =>
      b'.H g = { (s.blk.H g) with wake := some (hintField h 54 39), count := (s.blk.H g).count + 1 } ∧
      (∀ k, k ≠ g → b'.H k = s.blk.H k) ∧
      (∀ n, asleep n → hintField h 54 39 * 100 < s.blk.exitLatency n (s.blk.st n) s.blk.clk.stoppedCol → b'.st n = sWaking) ∧
      (∀ n, n < 256 → s.blk.groupOf n ≠ some g → b'.R n = s.blk.R n ∧ b'.st n = s.blk.st n)))

/-- A hint of a reserved TYPE, or with TAG 0b11, is discarded and sets CFG_PORT_STATUS.HINT_BAD_TYPE; no hint state changes
(R30). -/
def Claims.ReservedHint : Prop :=
  ∀ (s : State) (t : Nat) (h : BitVec 64), s.blk.Calm → s.blk.hintReady = true → s.blk.Mild srcHINT_BAD_TYPE →
    let bad := fun b' : Block => b'.fld CFG_PORT_STATUS_HINT_BAD_TYPE = 1 ∧ s.blk.Raised b' srcHINT_BAD_TYPE 0 ∧ s.blk.ReportOnly b' ∧
      s.blk.RegsKept b' [CFG_PORT_STATUS_HINT_BAD_TYPE.base]
    ((hintField h 63 60 = 0 ∨ 5 < hintField h 63 60) → Completes (.hintReservedType t h) s bad) ∧
    (hintField h 63 60 = 4 → hintField h 54 53 = 3 → Completes (.phaseTag t h) s bad ∧ Completes (.hintReservedType t h) s bad)

/-- While the engine clock stands a hint of every type that is accepted waits in the queue of 64 for its crossing, with the time of its
acceptance, and restarts the clock (R20, R28); REG_GHINT shows it at once (R257). With HINT_READY low no hint is taken (R28). That the
group's hint state, for the coming snapshot, and the event log follow only at the crossing is the model's choice (log entry 61). -/
def Claims.HintsWait : Prop :=
  ∀ (s : State) (t : Nat) (h : BitVec 64) (c : Instr), s.blk.Calm →
    ((c = .forecast t h ∧ hintField h 63 60 = 1 ∧ h.toNat % 2 ^ 31 = 0) ∨ (c = .barrierEnter t h ∧ hintField h 63 60 = 2 ∧ h.toNat % 2 ^ 47 = 0) ∨
      (c = .barrierExit t h ∧ hintField h 63 60 = 3 ∧ h.toNat % 2 ^ 31 = 0) ∨
      (c = .phaseTag t h ∧ hintField h 63 60 = 4 ∧ hintField h 54 53 < 3 ∧ h.toNat % 2 ^ 53 = 0) ∨
      (c = .latency t h ∧ hintField h 63 60 = 5 ∧ h.toNat % 2 ^ 39 = 0)) →
    (s.blk.hintReady = true → s.blk.bit IMG_STATUS_SAFE = false → s.blk.eng.clockStopped = true → s.blk.hasRegions (hintGroup h) = true →
      Completes c s (fun b' =>
        b'.hintQ = s.blk.hintQ ++ [(max s.blk.now t, s.blk.slo, h)] ∧ b'.hintQ.length ≤ 64 ∧ b'.hint = s.blk.hint ∧
        b'.trc = s.blk.trc ∧ b'.eng = { s.blk.eng with restartReq := true } ∧
        (∀ g, g < 32 → b'.hostRead (REG_GHINT_OPEN.base + 4 * g) =
          { b'.hintsTaken with hintQ := [] }.hostRead (REG_GHINT_OPEN.base + 4 * g)))) ∧
    (s.blk.hintReady = false → Completes c s (fun b' => b' = { s.blk with now := max s.blk.now t }))

/-- TAG and LATENCY hints, those that wait, and those of a reserved type. -/
def Obligations.OtherHints : Prop :=
  Claims.TagAndLatency ∧ Claims.HintsWait ∧ Claims.ReservedHint

/-- An activity frame of 256 beats replaces every counter, counter i in lane i mod 4 of beat i / 4, and ends the hold of the last good
frame; one of any other length is discarded and flagged; one that falls while the service domain is held in reset is not booked and
sets PWR_STATUS.GAP (R32, R34, R282). -/
def Claims.ActivityFrames : Prop :=
  ∀ (s : State) (t : Nat) (beats : List (BitVec 64)), s.blk.Calm →
    (s.blk.serviceUp = true → beats.length = 256 → Completes (.actFrameComplete t beats) s (fun b' =>
      (∀ p c, p < 64 → c < 16 →
        b'.red.counter p c = (((beats.getD ((16 * p + c) / 4) 0) >>> (16 * (c % 4))).setWidth 16).toNat) ∧
      b'.red.held = false ∧ b'.red.frameAt = max s.blk.now t ∧ b'.red.updAt = max s.blk.now t)) ∧
    (s.blk.serviceUp = true → beats.length ≠ 256 → s.blk.Mild srcACT_FRAME_ERR → Completes (.actFrameComplete t beats) s (fun b' =>
      b'.fld CFG_PORT_STATUS_ACT_FRAME_ERR = 1 ∧ s.blk.Raised b' srcACT_FRAME_ERR 0 ∧ s.blk.ReportOnly b' ∧
      s.blk.RegsKept b' [CFG_PORT_STATUS_ACT_FRAME_ERR.base])) ∧
    (s.blk.serviceHeld = true → s.blk.aonUp = true → beats.length = 256 → Completes (.actFrameComplete t beats) s (fun b' =>
        b'.fld PWR_STATUS_GAP = 1 ∧ b'.red = { s.blk.red with gapDue := s.blk.inReset } ∧
        s.blk.TimeRegsOnly { b' with red := s.blk.red } ∧ s.blk.RegsKept b' [PWR_STATUS_GAP.base]))

/-- Four microseconds without a good frame hold the last one and set ACT_STALE; the reducer then runs on the held counters, and
with no cap in force its scale is 4, CAP_ACTIVE is 0 and the target reads 0xFFFF (R34, R270, R273, R290). -/
def Claims.HeldCounters : Prop :=
  ∀ (s : State) (t : Nat), s.blk.Calm → s.blk.serviceUp = true →
    (s.blk.img.accepted = true → s.blk.red.frameAt + 4000 ≤ max s.blk.now t → s.blk.Mild srcACT_STALE →
      Completes (.actStaleTimeout t) s (fun b' =>
        b'.red = { s.blk.red with held := true } ∧ b'.fld CFG_PORT_STATUS_ACT_STALE = 1 ∧ s.blk.Raised b' srcACT_STALE 0 ∧
        s.blk.RegsKept b' [CFG_PORT_STATUS_ACT_STALE.base])) ∧
    (s.blk.red.held = true → s.blk.pfld PWR_CAP_FAST_LIMIT = 0 → s.blk.slowCap = 0 → Completes (.heldCounterRun t) s (fun b' =>
      b'.red.counters = s.blk.red.counters ∧ b'.red.held = true ∧ b'.red.updAt = max s.blk.now t ∧ b'.red.scale = 4 ∧
      b'.fld PWR_STATUS_CAP_ACTIVE = 0 ∧ b'.fld PWR_AVG_TGT = 0xFFFF ∧ b'.flt = s.blk.flt ∧ b'.eng = s.blk.eng))

/-- Activity frames, and the counters held without them. -/
def Obligations.ActivityPort : Prop :=
  Claims.ActivityFrames ∧ Claims.HeldCounters

/-! The clock unit handshake and the test access port. -/

/-- A transition of F_TGL captures F_REQ and F_CUR, in every state; in a region in RUN nothing else of the region changes but the time
since which F_CUR has stood above F_PERMIT, which ends when it is within it (R40, R43). F_CUR above F_PERMIT for longer than 1 µs sets
FIDX_LATE. -/
def Claims.ClockHandshake : Prop :=
  ∀ (s : State) (t n : Nat), n < 256 → s.blk.Calm →
    (∀ req cur, req < 64 → cur < 64 → Completes (.fTglCapture t n req cur) s (fun b' =>
      b'.fld REG_FIDX_REQ n = req ∧ b'.fld REG_FIDX_CUR n = cur)) ∧
    (∀ req cur, req < 64 → cur < 64 → s.blk.st n = sRun → Completes (.fTglCapture t n req cur) s (fun b' =>
      b'.fld REG_FIDX_REQ n = req ∧ b'.fld REG_FIDX_CUR n = cur ∧ b'.st n = sRun ∧
      (cur ≤ s.blk.fld REG_FIDX_PERMIT n → (b'.R n).lateAt = none) ∧
      (s.blk.fld REG_FIDX_PERMIT n < cur → (b'.R n).lateAt = some ((s.blk.R n).lateAt.getD (max s.blk.now t))) ∧
      b'.R n = { (s.blk.R n) with lateAt := (b'.R n).lateAt, exitTo := (b'.R n).exitTo } ∧
      (∀ m, m < 256 → m ≠ n → b'.R m = s.blk.R m) ∧
      s.blk.RegsKept b' [REG_FIDX_REQ.base + 4 * n])) ∧
    (∀ a, (s.blk.R n).lateAt = some a → s.blk.Mild srcFIDX_LATE →
      (a + 1000 < max s.blk.now t → Completes (.fidxLateTimeout t n) s (fun b' =>
        b'.fld CFG_PORT_STATUS_FIDX_LATE = 1 ∧ s.blk.Raised b' srcFIDX_LATE n ∧ s.blk.ReportOnly b' ∧
        s.blk.RegsKept b' [CFG_PORT_STATUS_FIDX_LATE.base])) ∧
      (max s.blk.now t ≤ a + 1000 → Completes (.fidxLateTimeout t n) s (fun b' => b' = { s.blk with now := max s.blk.now t })))

/-- A captured F_REQ above 0 is a wake event (R138): a region in DOZE or NAP goes to WAKING, one in PRIMED begins its Dawn, one in DARK
its soft start, and a descent is abandoned at the next boundary; F_REQ 0 wakes nothing, and neither does any while wake events are
ignored. F_CUR captured as 0 in stage L3, with F_PERMIT at 0 and the engine running, ends the stage: the Dusk begins for a region bound
for DARK, and the descent goes on at L4, or ends, for the others (R18, R145, Table 5-3). -/
def Claims.RequestWakes : Prop :=
  ∀ (s : State) (t n req cur : Nat), n < 256 → s.blk.Calm → req < 64 → cur < 64 →
    (0 < req → s.blk.wakeIgnored n = false → Completes (.fTglCapture t n req cur) s (fun b' =>
      ((s.blk.st n = sDoze ∨ s.blk.st n = sNap) → b'.st n = sWaking ∧ (b'.R n).exitTo = 0) ∧
      (s.blk.st n = sPrimed → s.blk.restarting = false → b'.st n = sDawn) ∧
      (s.blk.st n = sDark → s.blk.clk.forcing = false → b'.st n = sSoftstart) ∧
      (s.blk.st n = sLeaving → (s.blk.R n).descent ≠ 3 → (b'.R n).abandon = !(s.blk.R n).capDark))) ∧
    ((req = 0 ∨ s.blk.wakeIgnored n = true) → s.blk.st n ≠ sLeaving → Completes (.fTglCapture t n req cur) s (fun b' =>
      b'.st n = s.blk.st n ∧ b'.R n = { (s.blk.R n) with lateAt := (b'.R n).lateAt } ∧ (∀ m, m ≠ n → b'.R m = s.blk.R m) ∧
      s.blk.RegsKept b' [REG_FIDX_REQ.base + 4 * n])) ∧
    (s.blk.engineRunning = true → s.blk.st n = sLeaving → (s.blk.R n).descent = 3 → s.blk.fld REG_FIDX_PERMIT n = 0 →
      (s.blk.R n).abandon = false → Completes (.fTglCapture t n 0 0) s (fun b' =>
        ((s.blk.R n).depth = 3 → b'.st n = sDusk ∧ (b'.R n).stage = 15) ∧
        ((s.blk.R n).depth ≠ 3 → (b'.st n = sLeaving ∧ (b'.R n).descent = 4) ∨
          b'.st n = (if (s.blk.R n).depth = 2 then sNap else sDoze))))

/-- The test access port (R61): EXTEST holds every phase in service in SAFE and opens every header; IDCODE selects the
identification code; the other instructions and TRST_N touch nothing but the port, which holds BYPASS while TRST_N is low. -/
def Claims.TestAccessPort : Prop :=
  ∀ s : State,
    (s.blk.trstLow = false →
      (∀ t, s.blk.Calm → Completes (.tapExtest t) s (fun b' =>
        b'.extest = true ∧ b'.tapInstr = 2 ∧ (∀ n, n < 256 → (b'.R n).hdrEn = 0) ∧
        (s.blk.Mild srcPOOL_EMPTY → ∀ p, p < 1088 → s.blk.inService p = true → b'.cond p = cSafe))) ∧
      Completes .tapIdcode s (fun b' => b' = { s.blk with tapInstr := 3, tapOut := Config.idcode.toNat }) ∧
      Completes .tapSamplePreload s (fun b' => b' = { s.blk with tapInstr := 1, tapOut := 0 }) ∧
      Completes .tapBypass s (fun b' => b' = { s.blk with tapInstr := 0, tapOut := 0 })) ∧
    (s.blk.trstLow = true →
      (∀ t, s.blk.Calm → Completes (.tapExtest t) s (fun b' => b' = { s.blk with now := max s.blk.now t })) ∧
      ∀ c, (c = .tapIdcode ∨ c = .tapSamplePreload ∨ c = .tapBypass) → Completes c s (fun b' => b' = s.blk)) ∧
    Completes (.testLogicReset true) s (fun b' => b' = { s.blk with trstLow := true, tapInstr := 0, tapOut := 0 }) ∧
    Completes (.testLogicReset false) s (fun b' => b' = { s.blk with trstLow := false })

/-- The clock unit handshake and the test access port. -/
def Obligations.PinPorts : Prop :=
  Claims.ClockHandshake ∧ Claims.RequestWakes ∧ Claims.TestAccessPort

/-! The control engine's instructions, issued in a running program. -/

/-- The instructions of the sequencer outside a loop: each issues in the cycle the pipeline gives and advances the program
counter by one; NOP does nothing more; LOOP sets up LEN instructions for CNT passes; WRFLG adds an event to the tick; TWAIT
ends the program when all that was issued has ended (R174, R184 to R188). -/
def Claims.SequencerInstructions : Prop :=
  ∀ s : State, s.blk.eng.run ≠ .none → s.blk.eng.loopLeft = 0 →
    Completes .nop s (fun b' =>
      b'.eng.pc = s.blk.eng.pc + 1 ∧ b'.eng.cycle = s.blk.eng.pipe.issueCycle {} ∧ s.blk.eng.IssueOnly b'.eng ∧
      b' = { s.blk with eng := b'.eng }) ∧
    (∀ cnt len, Instr.wf (.loop cnt len) = true → Completes (.loop cnt len) s (fun b' =>
      b'.eng.pc = s.blk.eng.pc + 1 ∧ b'.eng.loopTop = s.blk.eng.pc + 1 ∧ b'.eng.loopEnd = s.blk.eng.pc + len ∧
      b'.eng.loopLeft = cnt ∧ b'.eng.blk = s.blk.eng.blk ∧ b' = { s.blk with eng := b'.eng })) ∧
    (∀ imm, imm < 256 → Completes (.wrflg imm) s (fun b' =>
      b'.eng.events = s.blk.eng.events ++ [imm] ∧ { s.blk.eng with events := b'.eng.events }.IssueOnly b'.eng ∧
      b' = { s.blk with eng := b'.eng })) ∧
    Completes (.twait []) s (fun b' =>
      b'.eng.run = .none ∧ b'.eng.twaitAt = some s.blk.eng.pipeAt.waitCycle ∧
      (s.blk.eng.fetched = [] → b'.eng.twaitAt = some s.blk.eng.pipe.waitCycle) ∧
      b'.eng = { s.blk.eng with run := .none, twaitAt := b'.eng.twaitAt, saved := b'.eng.saved, trail := [], fetched := [] } ∧
      (s.blk.eng.run = .tick → b'.eng.saved = s.blk.eng.saved) ∧
      (s.blk.eng.run = .init → ∀ q k, q < 4 → k < 8 →
        b'.eng.saved.get (fun _ => 0) (16 * q + k) = s.blk.eng.scal.get (fun _ => 0) (16 * q + k)) ∧
      b' = { s.blk with eng := b'.eng })

/-- A loop goes back to its first instruction while passes are left (R185): the last instruction of the body leads to the first,
and out of the loop after the last pass. -/
def Claims.LoopPasses : Prop :=
  ∀ s : State, s.blk.eng.run ≠ .none → s.blk.eng.pc = s.blk.eng.loopEnd →
    (1 < s.blk.eng.loopLeft → Completes .nop s (fun b' =>
      b'.eng.pc = s.blk.eng.loopTop ∧ b'.eng.loopLeft = s.blk.eng.loopLeft - 1)) ∧
    (s.blk.eng.loopLeft = 1 → Completes .nop s (fun b' => b'.eng.pc = s.blk.eng.pc + 1 ∧ b'.eng.loopLeft = 0))

/-- The sequencer and its loops. -/
def Obligations.Sequencer : Prop :=
  Claims.SequencerInstructions ∧ Claims.LoopPasses

/-- The scalar instructions write the scalar in every slice, and no other (R173, R217): S0..S7, and S8..S12 by SMOV and SADD of
INIT alone; the immediate; the sum modulo 2^32 with the sign-extended immediate; the cycle of issue, in which a corrected error of a
fetched word counts 2 (R170, R190); a half of TICKNO; the slice's sticky flags, which AFLG clears when its immediate is 1. -/
def Obligations.ScalarInstructions : Prop :=
  ∀ (s : State) (sd : Nat), s.blk.eng.run ≠ .none →
    let wrote := fun (b' : Block) (f : Nat → Nat) =>
      (∀ q, q < 4 → b'.scalar q sd = f q) ∧ (∀ q k, q < 4 → k < 13 → k ≠ sd → b'.scalar q k = s.blk.scalar q k) ∧
      b' = { s.blk with eng := b'.eng }
    let kept := fun b' : Block => { s.blk.eng with scal := b'.eng.scal }.IssueOnly b'.eng
    (sd < 8 ∨ (sd < 13 ∧ s.blk.eng.run = .init) → ∀ imm, imm < 2 ^ 22 →
      Completes (.smov sd imm) s (fun b' => wrote b' (fun _ => imm) ∧ kept b') ∧
      Completes (.sadd sd imm) s (fun b' =>
        wrote b' (fun q => (s.blk.scalar q sd + (if imm < 2 ^ 21 then imm else imm + 2 ^ 32 - 2 ^ 22)) % 2 ^ 32) ∧ kept b')) ∧
    (8 ≤ sd → sd < 13 → s.blk.eng.run = .tick → ∀ imm, imm < 2 ^ 22 →
      let none := fun b' : Block => s.blk.eng.IssueOnly b'.eng ∧ b' = { s.blk with eng := b'.eng }
      Completes (.smov sd imm) s none ∧ Completes (.sadd sd imm) s none) ∧
    (sd < 8 →
      (s.blk.eng.fetched = [] →
        Completes (.cyc sd []) s (fun b' => wrote b' (fun _ => s.blk.eng.pipe.issueCycle {} % 2 ^ 32) ∧ kept b')) ∧
      (s.blk.eng.fetched = [] → s.blk.eng.trail = [] → s.blk.eng.pipe = { next := s.blk.eng.cycle0 } → s.blk.Mild srcMEM_SPARE_OUT →
        ∀ h : EccHit, h.ue = false → h.word = s.blk.eng.pc / 4 → Completes (.cyc sd [h]) s (fun b' =>
          (∀ q, q < 4 → b'.scalar q sd = (s.blk.eng.cycle0 + 2) % 2 ^ 32) ∧
          b'.fld ENG_ECC_CORR = (s.blk.fld ENG_ECC_CORR + 1) % 2 ^ (ENG_ECC_CORR.hi + 1 - ENG_ECC_CORR.lo))) ∧
      Completes (.tick sd 0) s (fun b' => wrote b' (fun _ => s.blk.fld ENG_TICKNO_LO_VAL) ∧ kept b') ∧
      Completes (.tick sd 1) s (fun b' => wrote b' (fun _ => s.blk.fld ENG_TICKNO_HI_VAL) ∧ kept b') ∧
      Completes (.aflg sd 0) s (fun b' => wrote b' (fun q => s.blk.eng.flagsOf q) ∧ kept b') ∧
      Completes (.aflg sd 1) s (fun b' => wrote b' (fun q => s.blk.eng.flagsOf q) ∧ b'.eng.inv = 0 ∧ b'.eng.ovf = 0))

/-- LDS and LDC load the rows RM selects from row S[SB] + OFS on of the slice's own bank, after the errors met are seen to, and
leave every other row of every block alone (R170 to R172, R174). With no error nothing but block rows changes. -/
def Claims.Loads : Prop :=
  ∀ (s : State) (o : MOp) (ecc : List EccHit), o.ok = true → s.blk.eng.run ≠ .none →
    let loaded := fun (b' e : Block) (m : Nat) =>
      (∀ q j, q < 4 → j ∈ rowsOf o.rm → b'.eng.row q o.bd j = e.eng.memRow m q (e.rowAddr q o j)) ∧
      (∀ q k j, q < 4 → k < 32 → j < 4 → (k ≠ o.bd ∨ j ∉ rowsOf o.rm) → b'.eng.row q k j = e.eng.row q k j)
    let lds := fun b' => loaded b' ((s.blk.issue (issueOf (.lds o ecc)) (eccStall ecc)).eccRead 1 ecc) 1
    let ldc := fun b' => loaded b' ((s.blk.issue (issueOf (.ldc o ecc)) (eccStall ecc)).eccRead 2 ecc) 2
    Completes (.lds o ecc) s lds ∧ Completes (.ldc o ecc) s ldc ∧
    (ecc = [] → Completes (.lds o ecc) s (fun b' => loaded b' s.blk 1 ∧ s.blk.BlocksOnly b') ∧
      Completes (.ldc o ecc) s (fun b' => loaded b' s.blk 2 ∧ s.blk.BlocksOnly b'))

/-- STS stores the rows RM selects: a persistent row's pending copy, whose current copy stays, or a scratch row at once; no
other row of the slices' banks changes (R172). -/
def Claims.Stores : Prop :=
  ∀ (s : State) (o : MOp), o.ok = true → s.blk.eng.run ≠ .none → (∀ q j, q < 4 → j ∈ rowsOf o.rm → s.blk.rowAddr q o j < 654) →
    Completes (.sts o) s (fun b' =>
      (∀ q j, q < 4 → j ∈ rowsOf o.rm →
        (s.blk.rowAddr q o j < 256 →
          b'.eng.smPend.get (fun _ => none) (q * 256 + s.blk.rowAddr q o j) = some (s.blk.eng.row q o.bd j) ∧
          b'.eng.memRow 1 q (s.blk.rowAddr q o j) = s.blk.eng.memRow 1 q (s.blk.rowAddr q o j)) ∧
        (256 ≤ s.blk.rowAddr q o j → b'.eng.memRow 1 q (s.blk.rowAddr q o j) = s.blk.eng.row q o.bd j)) ∧
      (∀ q r, q < 4 → r < 654 → (∀ j ∈ rowsOf o.rm, s.blk.rowAddr q o j ≠ r) → b'.eng.memRow 1 q r = s.blk.eng.memRow 1 q r) ∧
      { s.blk.eng with sm := b'.eng.sm, smPend := b'.eng.smPend }.IssueOnly b'.eng ∧ b' = { s.blk with eng := b'.eng })

/-- The engine's memory instructions. -/
def Obligations.LoadsAndStores : Prop :=
  Claims.Loads ∧ Claims.Stores

/-- The array instructions add the exact products of every output and lane to the accumulator named, which AM = 0 first sets
to zero, and no other cell changes (R175, R176, R223). That each pair of output and lane has a cell of its own, so that no other pair's
sum changes, is the model's choice (log entry 72). -/
def Claims.ArrayInstructions : Prop :=
  ∀ (s : State) (o : XOp), s.blk.eng.run ≠ .none →
    let dot := fun (sc : Nat) (prods : Eng → Nat → Nat → Nat → List (Option Int × Option Int)) (q out i : Nat) =>
      (prods s.blk.eng q out i).foldl (fun (c : Cell) p => c.addProduct p.1 p.2 sc) (if o.am then s.blk.eng.cell q o.ac out i else {})
    let base := fun q => s.blk.scalar q o.sb
    (o.mvbOk = true → Completes (.mvb o [] false) s (fun b' =>
      s.blk.CellsResult b' o.ac o.mvbOuts o.mvbLanes (dot (fmtT10.scale + fmtC18.scale) (mvbProducts o base)))) ∧
    (o.mvrOk = true → Completes (.mvr o [] false) s (fun b' =>
      s.blk.CellsResult b' o.ac o.mt (16 * o.ng) (dot (fmtT10.scale + fmtC18.scale) (mvrProducts o base)))) ∧
    (o.mvpOk = true → Completes (.mvp o [] false) s (fun b' =>
      s.blk.CellsResult b' o.ac (8 * o.mt) (16 * o.ng) (dot (2 * fmtC18.scale) (mvpProducts o base)))) ∧
    (o.mvwOk = true → Completes (.mvw o [] false) s (fun b' =>
      s.blk.CellsResult b' o.ac o.mt (16 * o.ng) (dot (2 * fmtW36.scale) (mvwProducts o base))))

/-- A mismatch of the shadowing array's check, of any array instruction, marks a tick for abort and reports ENG_ARRAY_MISMATCH; it is
not seen while A4 does not shadow (R194, R208). -/
def Claims.ShadowMismatch : Prop :=
  ∀ (s : State) (o : XOp) (c : Instr),
    ((c = .mvb o [] true ∧ o.mvbOk = true) ∨ (c = .mvr o [] true ∧ o.mvrOk = true) ∨ (c = .mvp o [] true ∧ o.mvpOk = true) ∨
      (c = .mvw o [] true ∧ o.mvwOk = true)) → s.blk.eng.run = .tick → s.blk.Mild srcENG_ARRAY_MISMATCH →
    (s.blk.shadowing = true → Completes c s (fun b' =>
      b'.eng.mismatch = true ∧ b'.fld ENG_FLAGS_ARRAY_MISMATCH = 1 ∧
      (s.blk.srcEnabled srcENG_ARRAY_MISMATCH = true → b'.pendingSrc srcENG_ARRAY_MISMATCH = true))) ∧
    (s.blk.shadowing = false → Completes c s (fun b' =>
      b'.eng.mismatch = s.blk.eng.mismatch ∧ b'.flt = s.blk.flt ∧ s.blk.RegsKept b' []))

/-- The array instructions, and the shadow's mismatch. -/
def Obligations.Arrays : Prop :=
  Claims.ArrayInstructions ∧ Claims.ShadowMismatch

/-- ACRD reads outputs FN + v of an accumulator, rounded once, with the flags of their marks (R224); ACXW spreads outputs FN..FN+15
of the weave lanes to the lanes of their regions, exactly, in an accumulator that then holds nothing else (R223). -/
def Claims.AccumulatorReads : Prop :=
  ∀ (s : State) (o : ROp), s.blk.eng.run ≠ .none →
    (Instr.wf (.acrd o) = true → Completes (.acrd o) s (fun b' =>
      s.blk.VectorResult b' o.ty o.bd (valuesOf o.ty) (fun q v i => laneCell o.ty (s.blk.eng.cell q o.ba (o.fn + v) i)))) ∧
    (Instr.wf (.acxw o) = true → Completes (.acxw o) s (fun b' =>
      (∀ q k i, q < 4 → k < 16 → i < 64 → b'.eng.cell q o.bd k i = s.blk.eng.cell q o.ba (o.fn + k) (i / 16)) ∧
      (∀ q k i, q < 4 → 16 ≤ k → k < 1024 → i < 64 → b'.eng.cell q o.bd k i = {}) ∧
      (∀ q a k i, q < 4 → a < 4 → a ≠ o.bd → k < 1024 → i < 64 → b'.eng.cell q a k i = s.blk.eng.cell q a k i) ∧
      { s.blk.eng with acc := b'.eng.acc }.IssueOnly b'.eng ∧ b' = { s.blk with eng := b'.eng }))

/-- REDX and REDA give every slice the sum of a block over the four quadrants, each addition rounded: REDX in quadrant order,
REDA in the order of arrival, and both with the shared array's two first in three-array operation (R180, R195, R225). -/
def Claims.Reductions : Prop :=
  ∀ (s : State) (o : ROp), s.blk.eng.run ≠ .none →
    (Instr.wf (.redx o) = true → Completes (.redx o) s (fun b' =>
      s.blk.VectorResult b' o.ty o.bd (valuesOf o.ty) (fun _ v i => laneReduce s.blk.eng o.ty o.ba s.blk.sumOrder v i) ∧
      (3 < s.blk.fld ENG_ARRAY_ORPHAN → ∀ v i, v < valuesOf o.ty → i < 64 → b'.eng.value 0 o.ty o.bd v i =
        (laneReduce s.blk.eng o.ty o.ba [0, 1, 2, 3] v i).bits % 2 ^ laneBits o.ty))) ∧
    (∀ order, Instr.wf (.reda o order) = true → Completes (.reda o order) s (fun b' =>
      s.blk.VectorResult b' o.ty o.bd (valuesOf o.ty) (fun _ v i =>
        laneReduce s.blk.eng o.ty o.ba (if 3 < s.blk.fld ENG_ARRAY_ORPHAN then order else s.blk.sumOrder) v i)))

/-- Accumulator reads and reductions. -/
def Obligations.AccumulatorUnit : Prop :=
  Claims.AccumulatorReads ∧ Claims.Reductions

/-- The arithmetic instructions compute every value of every lane of every slice from the operands as they stood, also where
the destination is a source, each exact and rounded once (R168, R219). That VSELL passes a NaN as it stands is the model's choice (log
entry 78). -/
def Obligations.VectorArithmetic : Prop :=
  ∀ (s : State) (o : ROp), o.binary = true → s.blk.eng.run ≠ .none →
    let x := fun q v i => s.blk.eng.value q o.ty o.ba v i
    let y := fun q v i => s.blk.eng.value q o.ty o.bb v i
    let d := fun q v i => s.blk.eng.value q o.ty o.bd v i
    let is := fun (b' : Block) f => s.blk.VectorResult b' o.ty o.bd (valuesOf o.ty) f
    Completes (.vadd o) s (fun b' => is b' (fun q v i => laneAdd o.ty (x q v i) (y q v i))) ∧
    Completes (.vsub o) s (fun b' => is b' (fun q v i => laneSub o.ty (x q v i) (y q v i))) ∧
    Completes (.vmul o) s (fun b' => is b' (fun q v i => laneMul o.ty (x q v i) (y q v i))) ∧
    Completes (.vfma o) s (fun b' => is b' (fun q v i => laneFma o.ty (x q v i) (y q v i) (d q v i))) ∧
    Completes (.vmin o) s (fun b' => is b' (fun q v i => lanePick true o.ty (x q v i) (y q v i))) ∧
    Completes (.vmax o) s (fun b' => is b' (fun q v i => lanePick false o.ty (x q v i) (y q v i))) ∧
    Completes (.vclmp o) s (fun b' => is b' (fun q v i => laneClamp o.ty (d q v i) (x q v i) (y q v i))) ∧
    Completes (.vsell o) s (fun b' => is b' (fun q v i =>
      { bits := if laneNonZero o.ty (y q v i) then x q v i else d q v i }))

/-- VMINI writes the winner's value to BD and FN to BB where BA wins, and elsewhere leaves both; with BB = BD one of the two results
stands, the model's free choice (log entry 13); VCMP writes 1.0 or 0 and sets no flag; VSEL moves whole rows (R218, R220, Table 6-4). -/
def Claims.SelectInstructions : Prop :=
  ∀ (s : State) (o : ROp), s.blk.eng.run ≠ .none →
    let x := fun q v i => s.blk.eng.value q o.ty o.ba v i
    let d := fun q v i => s.blk.eng.value q o.ty o.bd v i
    (Instr.wf (.vmini o) = true → o.bb ≠ o.bd → Completes (.vmini o) s (fun b' =>
      (∀ q v i, q < 4 → v < valuesOf o.ty → i < 64 →
        b'.eng.value q o.ty o.bd v i = (if laneWins o.ty (d q v i) (x q v i) then (lanePick true o.ty (x q v i) (x q v i)).bits else d q v i) % 2 ^ laneBits o.ty ∧
        b'.eng.value q o.ty o.bb v i = (if laneWins o.ty (d q v i) (x q v i) then (laneExact o.ty o.fn 0).bits
          else s.blk.eng.value q o.ty o.bb v i) % 2 ^ laneBits o.ty) ∧
      (∀ q k r, q < 4 → k < 32 → k ≠ o.bd → k ≠ o.bb → r < 4 → b'.eng.row q k r = s.blk.eng.row q k r) ∧
      s.blk.RegsKept b' [ENG_ARITH_INV0.base] ∧ b' = { s.blk with regs := b'.regs, eng := b'.eng })) ∧
    (Instr.wf (.vmini o) = true → o.bb = o.bd → Completes (.vmini o) s (fun b' =>
      (∀ q v i, q < 4 → v < valuesOf o.ty → i < 64 →
        (laneWins o.ty (d q v i) (x q v i) = true →
          b'.eng.value q o.ty o.bd v i = (lanePick true o.ty (x q v i) (x q v i)).bits % 2 ^ laneBits o.ty ∨
          b'.eng.value q o.ty o.bd v i = (laneExact o.ty o.fn 0).bits % 2 ^ laneBits o.ty) ∧
        (laneWins o.ty (d q v i) (x q v i) = false → b'.eng.value q o.ty o.bd v i = d q v i)) ∧
      (∀ q k r, q < 4 → k < 32 → k ≠ o.bd → r < 4 → b'.eng.row q k r = s.blk.eng.row q k r) ∧
      s.blk.RegsKept b' [ENG_ARITH_INV0.base] ∧ b' = { s.blk with regs := b'.regs, eng := b'.eng })) ∧
    (Instr.wf (.vcmp o) = true → Completes (.vcmp o) s (fun b' =>
      s.blk.VectorResult b' o.ty o.bd (valuesOf o.ty) (fun q v i =>
        { bits := if laneCmp o.ty o.fn (x q v i) (s.blk.eng.value q o.ty o.bb v i) then oneTy o.ty else 0 }) ∧ s.blk.RegsKept b' [])) ∧
    (Instr.wf (.vsel o) = true → Completes (.vsel o) s (fun b' =>
      (∀ q r, q < 4 → r < 4 → b'.eng.row q o.bd r = if o.fn / 2 ^ r % 2 = 1 then s.blk.eng.row q o.ba r else s.blk.eng.row q o.bd r) ∧
      (∀ q k r, q < 4 → k < 32 → k ≠ o.bd → r < 4 → b'.eng.row q k r = s.blk.eng.row q k r) ∧ s.blk.BlocksOnly b'))

/-- VCVT converts between formats with the rows paired, VXW spreads each weave's lane, VSUML leaves each group's tree sum in its
first lane and 0 in the others, PRNG draws its rows by counter and takes the next draw number (R221, R225, R477). -/
def Claims.LaneMoves : Prop :=
  ∀ (s : State) (o : ROp), s.blk.eng.run ≠ .none →
    let is := fun (b' : Block) f => s.blk.VectorResult b' o.ty o.bd (valuesOf o.ty) f
    (Instr.wf (.vcvt o) = true → Completes (.vcvt o) s (fun b' => is b' (fun q v i =>
      if o.fn = 1 ∧ o.ty ≠ 1 ∧ 2 ≤ v then { bits := 0 } else laneCvt o.fn o.ty (s.blk.eng.value q o.fn o.ba v i)))) ∧
    (Instr.wf (.vxw o) = true → Completes (.vxw o) s (fun b' => is b' (fun q v i =>
      { bits := s.blk.eng.value q o.ty o.ba v (i / 16) }) ∧ s.blk.RegsKept b' [])) ∧
    (Instr.wf (.vsuml o) = true → Completes (.vsuml o) s (fun b' => is b' (fun q v i =>
      if i % 16 = 0 then treeSum o.ty ((List.range 16).map (fun j => s.blk.eng.value q o.ty o.ba v (i + j))) else { bits := 0 }))) ∧
    (Instr.wf (.prng o) = true → Completes (.prng o) s (fun b' =>
      b'.eng.prngJ = s.blk.eng.prngJ + 1 ∧
      ∀ q r i, q < 4 → r < 4 → i < 64 → b'.eng.value q 2 o.bd r i =
        laneI16 (readI16 ((prngDraw s.blk.key s.blk.tickno (16 + 256 * s.blk.eng.prngJ + 64 * q + i)).toNat / 2 ^ (16 * r))) % 2 ^ 18))

/-- Selections, comparisons and lane moves. -/
def Obligations.SelectUnit : Prop :=
  Claims.SelectInstructions ∧ Claims.LaneMoves

/-- The lookups (R177, R178): TLOP gives each region's minimum VCODE and margin class from its own table, by F-index and band
clamped to their ranges; TLUF evaluates the segment of its function, rounded once. That TLUF reads slope and intercept as C18 in every
TY is the model's choice (log entry 78). -/
def Claims.TableLookups : Prop :=
  ∀ (s : State) (o : ROp), s.blk.eng.run ≠ .none →
    (Instr.wf (.tlop o []) = true → Completes (.tlop o []) s (fun b' =>
      let entry := fun q i =>
        (s.blk.eng.word 3 (64 * (64 * q + i) + tableIndex o.ty (s.blk.eng.value q o.ty o.ba 0 i) 63)).toNat /
          2 ^ (16 * tableIndex o.ty (s.blk.eng.value q o.ty o.ba 1 i) 7) % 65536
      s.blk.VectorResult b' 2 o.bd 2 (fun q r i =>
        { bits := laneI16 (if r = 0 then (800 + entry q i / 32 : Nat) else (entry q i % 32 : Nat)),
          inv := (readTy o.ty (s.blk.eng.value q o.ty o.ba r i)).isNone }))) ∧
    (Instr.wf (.tluf o []) = true → Completes (.tluf o []) s (fun b' =>
      s.blk.VectorResult b' o.ty o.bd (valuesOf o.ty) (fun q v i => laneFunc s.blk.eng q o.ty o.fn (s.blk.eng.value q o.ty o.ba v i))))

/-- RDSNP, RDHINT and RDACT read four rows of the snapshot of the tick's boundary, and RDASY of the live state at its issue; in
INIT all read +0, which is the model's choice (log entry 21) (R181, R225, R271). -/
def Claims.SnapshotReads : Prop :=
  ∀ (s : State) (o : ROp), s.blk.bit TRC_REPLAY_BUSY = false →
    let shows := fun (b' : Block) (first : Nat) (v : Nat → Nat → Nat) =>
      (∀ q r i, q < 4 → r < 4 → i < 64 → laneOf (b'.eng.row q o.bd r) 18 i = v (first + r) (64 * q + i) % 2 ^ 18) ∧
      (∀ q k r, q < 4 → k < 32 → k ≠ o.bd → r < 4 → b'.eng.row q k r = s.blk.eng.row q k r) ∧ s.blk.BlocksOnly b'
    let all := fun (snap live : Nat → Nat → Nat) =>
      (Instr.wf (.rdsnp o) = true → Completes (.rdsnp o) s (fun b' => shows b' (4 * o.fn) snap)) ∧
      (Instr.wf (.rdhint o) = true → Completes (.rdhint o) s (fun b' => shows b' (32 + 4 * o.fn) snap)) ∧
      (Instr.wf (.rdact o) = true → Completes (.rdact o) s (fun b' => shows b' (40 + 4 * o.fn) snap)) ∧
      (Instr.wf (.rdasy o) = true → Completes (.rdasy o) s (fun b' => shows b' (4 * o.fn) live))
    (s.blk.eng.run = .tick → all s.blk.withSnap.lane s.blk.lane) ∧ (s.blk.eng.run = .init → all (fun _ _ => 0) (fun _ _ => 0))

/-- Table lookups and reads of the snapshot. -/
def Obligations.TablesAndSnapshot : Prop :=
  Claims.TableLookups ∧ Claims.SnapshotReads

/-- WROUT puts the field's rows into the output buffer for every region and marks the field written, and no committed output
changes (R182). -/
def Claims.OutputWrites : Prop :=
  ∀ (s : State) (o : ROp), Instr.wf (.wrout o) = true → s.blk.eng.run ≠ .none →
    Completes (.wrout o) s (fun b' =>
      (∀ r n, r < fieldRows o.fn → n < 256 →
        b'.eng.outBuf.get (fun _ => 0) (outKey o.fn r n) = laneOf (s.blk.eng.row (n / 64) o.ba r) 18 (n % 64) % 65536) ∧
      (∀ f r n, f < 7 → f ≠ o.fn → r < 4 → n < 256 →
        b'.eng.outBuf.get (fun _ => 0) (outKey f r n) = s.blk.eng.outBuf.get (fun _ => 0) (outKey f r n)) ∧
      o.fn ∈ b'.eng.wrote ∧ b'.eng.outCom = s.blk.eng.outCom ∧
      { s.blk.eng with outBuf := b'.eng.outBuf, wrote := b'.eng.wrote }.IssueOnly b'.eng ∧ b' = { s.blk with eng := b'.eng })

/-- RSEND queues its message in the tick while fewer than eight wait; with the queue full it stalls until a slot frees, as its head moves
to the transmit buffer that the ring lets it enter, and then queues it; with no slot freed within 24 cycles it stalls 24 cycles and is
discarded with RING_DROP (R183, R465). -/
def Claims.RingSends : Prop :=
  ∀ (s : State) (o : ROp) (freed : Option Nat), Instr.wf (.rsend o freed) = true → s.blk.eng.run ≠ .none →
    let w := fun r => laneOf (s.blk.eng.row 0 o.ba r) 18 0 % 65536
    (s.blk.eng.sends.length + s.blk.eng.sendQ.length < 8 → Completes (.rsend o freed) s (fun b' =>
      b'.eng.sends = s.blk.eng.sends ++ [(w 0, w 1)] ∧ { s.blk.eng with sends := b'.eng.sends }.IssueOnly b'.eng ∧
      b' = { s.blk with eng := b'.eng })) ∧
    (8 ≤ s.blk.eng.sends.length + s.blk.eng.sendQ.length → s.blk.maySend = true → ∀ c, c ≤ 24 → freed = some c →
      Completes (.rsend o freed) s (fun b' =>
        b'.eng.sends = s.blk.eng.sends ++ [(w 0, w 1)] ∧ b'.eng.sendQ = s.blk.eng.sendQ.tail ∧
        b'.eng.stalls = s.blk.eng.stalls + c)) ∧
    (8 ≤ s.blk.eng.sends.length + s.blk.eng.sendQ.length → (freed = none ∨ s.blk.maySend = false) → s.blk.Mild srcRING_DROP →
      Completes (.rsend o freed) s (fun b' =>
        b'.eng.sends = s.blk.eng.sends ∧ b'.eng.stalls = s.blk.eng.stalls + 24 ∧ b'.fld ENG_FLAGS_RING_DROP = 1 ∧
        s.blk.Raised b' srcRING_DROP 0 ∧ s.blk.RegsKept b' [ENG_FLAGS_RING_DROP.base]))

/-- Writes of the output buffer, and ring messages. -/
def Obligations.OutputUnit : Prop :=
  Claims.OutputWrites ∧ Claims.RingSends

/-! Phases, the weave loop and the swap-in (chapter 3). -/

/-- What the stages' events do: a Yalga-V frame with a good start bit and parity is the period's result of its phase (while the PHASE
group's reference settles, with the code of the last one), and one that is not is counted (R69, R80, R354). The fast limit holds the
high side off, ends the on-time and marks the period (R15, R76). Zero current or the low-side limit turns both switches of a phase in
SAFE off (R80). -/
def Claims.StageEvents : Prop :=
  ∀ (s : State) (p : Nat), p < 1088 → s.blk.populated p = true →
    (∀ f : BitVec 16, s.blk.isV = true →
      (f.getLsbD 15 = true → frameParityOk f = true → Completes (.senseFrame p f) s (fun b' =>
        (∃ code, (b'.P p).res = some { frameResult p f with code := code } ∧
          (s.blk.refSettled 1 = true → code = (frameResult p f).code) ∧
          (∀ l, s.blk.refSettled 1 = false → (s.blk.P p).last = some l → code = l.code)) ∧
        b'.P p = { (s.blk.P p) with res := (b'.P p).res,
                                    drive := if f.getLsbD 3 = true ∧ s.blk.cond p = cSafe then Drive.off else (s.blk.P p).drive } ∧
        s.blk.PhaseOnly b' p ∧ s.blk.RegsKept b' [])) ∧
      ((f.getLsbD 15 = false ∨ frameParityOk f = false) → Completes (.senseFrame p f) s (fun b' =>
        b'.fld WV_LIMCNT_FRAME_ERR (weaveOfPhase p) = (s.blk.fld WV_LIMCNT_FRAME_ERR (weaveOfPhase p) + 1) % 256 ∧
        s.blk.RegsOnly b' ∧ s.blk.RegsKept b' [WV_LIMCNT_FRAME_ERR.base + 4 * weaveOfPhase p]))) ∧
    (s.blk.cond p ≠ cSafe → s.blk.cond p ≠ cRetired → Completes (.fastLimitTrip p) s (fun b' =>
      b'.P p = { (s.blk.P p) with flHold := true, flTrip := true, cut := true } ∧ s.blk.PhaseOnly b' p ∧ s.blk.RegsKept b' [])) ∧
    (s.blk.cond p = cSafe →
      let off := fun b' : Block => b'.P p = { (s.blk.P p) with drive := Drive.off } ∧ s.blk.PhaseOnly b' p ∧ s.blk.RegsKept b' []
      Completes (.safeZeroCross p) s off ∧ Completes (.safeLowSideTimeout p) s off)

/-- A rotation is due after 2^(ROT_LOG2 + 4) switching periods of the weave, and then moves the base index of each of its regions to
the index of the ranked phase before it in cyclic order; a region in a droop episode waits for its end (R74). -/
def Claims.Rotation : Prop :=
  ∀ (s : State) (w : Nat), w < 16 →
    ((s.blk.W w).periods < 2 ^ (s.blk.efld WV_PLAIT_ROT_LOG2 w + 4) → Completes (.plaitRotation w) s (fun b' => b' = s.blk)) ∧
    (2 ^ (s.blk.efld WV_PLAIT_ROT_LOG2 w + 4) ≤ (s.blk.W w).periods → Completes (.plaitRotation w) s (fun b' =>
      b'.W w = { (s.blk.W w) with periods := 0 } ∧ (∀ v, v ≠ w → b'.W v = s.blk.W v) ∧
      (∀ n, n < 256 → weaveOf n = w → b'.R n =
        if (s.blk.R n).episode = true then { (s.blk.R n) with rotDue := true }
        else { (s.blk.R n) with
          baseK := (((List.range 4).map (fun i => ((s.blk.R n).baseK + 3 - i) % 4)).find? (fun k => !(s.blk.rankedAt n k).isEmpty)).getD
            (s.blk.R n).baseK,
          rotDue := false }) ∧
      (∀ n, weaveOf n ≠ w → b'.R n = s.blk.R n) ∧ b' = { s.blk with rgn := b'.rgn, wv := b'.wv }))

/-- At the start of a period every ranked phase of a region takes the slot offset of its rank and starts
its period (new − old) mod 256 fine steps late (R72, R73). -/
def Claims.SlotOffsets : Prop :=
  ∀ (s : State) (n : Nat), n < 256 → (s.blk.ranked n).Nodup → (∀ p, p ∈ s.blk.ranked n → (s.blk.P p).offset < 256) →
    let b' := s.blk.placeSlots n
    let count := (s.blk.ranked n).length
    (∀ j p, (s.blk.ranked n)[j]? = some p →
      (b'.P p).offset = (16 * (n % 16) + weaveOf n + 256 * j / count) % 256 ∧
      (b'.P p).delay < 256 ∧ ((s.blk.P p).offset + (b'.P p).delay) % 256 = (b'.P p).offset) ∧
    (∀ p, p ∉ s.blk.ranked n → b'.P p = s.blk.P p) ∧ b' = { s.blk with ph := b'.ph }

/-- The sense frames, limits, rotation and slots of the phases. -/
def Obligations.PhaseEvents : Prop := Claims.StageEvents ∧ Claims.Rotation ∧ Claims.SlotOffsets

/-- One period of a weave's loop (R65, R93, R103, R104): each region takes its window code and the error of it; every phase that
switches is commanded 0 or a duty of 8 to 224; and with sources that only report, PH_STATE.DUTY shows the duty of the period that ends,
and other weaves' set-points, window codes and states stay. -/
def Claims.LoopPeriod : Prop :=
  ∀ (s : State) (t w : Nat) (windows : List Nat) (results : List PhaseResult), w < 16 → s.blk.Calm → s.blk.clk.forcing = false →
    Completes (.fastLoopPeriod t w windows results) s (fun b' =>
      (∀ i, i < 16 → (s.blk.R (16 * w + i)).winFail = false →
        b'.fld REG_VSENSE_WINDOW (16 * w + i) = min (windows.getD i 32) 63) ∧
      (∀ i, i < 16 → (b'.R (16 * w + i)).ePrev = 3 * ((b'.fld REG_VSENSE_WINDOW (16 * w + i) : Int) - 32)) ∧
      (∀ i p, i < 16 → p ∈ b'.switching (16 * w + i) → (b'.P p).duty = 0 ∨ (8 ≤ (b'.P p).duty ∧ (b'.P p).duty ≤ 224)) ∧
      (s.blk.Milds [srcFAIL_SHORT, srcSTAGE_OT, srcFAIL_OPEN, srcSENSE_FAIL, srcPOOL_EMPTY] → s.blk.reaction srcSHORT < 3 →
        s.blk.thm.stopStep = 0 →
        (∀ p, p ∈ phasesOf w → b'.fld PH_STATE_DUTY p = (s.blk.P p).duty % 256) ∧
        ∀ n, n < 256 → weaveOf n ≠ w → b'.fld REG_VSENSE_WINDOW n = s.blk.fld REG_VSENSE_WINDOW n ∧
          b'.fld REG_VSET_APPLIED n = s.blk.fld REG_VSET_APPLIED n ∧ b'.st n = s.blk.st n))

/-- The law of R104 for a region in RUN at its set-point: the error of the window code, the integrator, held where it was frozen (R105),
and the duty of each phase, the rounded feed-forward less the proportional and derivative parts, with integrator, trim and share raise,
0 below 4 or at code 63 and else held within 8..224. Above the slow limit of R78, 3.1 A or below 85 % of the set-point that times the
greater of 0.3 and the ratio, a phase is commanded no more than that, and the integrator freezes. -/
def Claims.LoopDuty : Prop :=
  ∀ (b : Block) (n code : Nat), n < 256 → b.st n = sRun → b.fld REG_VSET_APPLIED n = b.fld REG_VSET_TARGET n →
    (b.R n).winFail = false → (b.R n).convRun = 0 → (b.R n).convBad = false → b.vin (quadOf n) ≠ 0 →
    let b' := b.regionPeriod n code
    let vin : Int := b.vin (quadOf n)
    let vout : Rat := b.fld REG_VSENSE_VOUT n
    let vset : Rat := b.fld REG_VSET_APPLIED n
    let gain := fun f : Fld => (b.efld f (weaveOf n) : Int)
    let e : Int := 3 * ((min code 63 : Nat) - 32 : Int)
    let integ := if (b.R n).froze then (b.R n).integ else max (-64) (min 64 ((b.R n).integ - (gain WV_COMP_KI * e).tdiv 256))
    let limit : Rat := if 85 * vset ≤ 100 * vout then 31 / 10 * 131072 else 31 / 10 * 131072 * max (3 / 10) (vout / vset)
    (b'.R n).ePrev = e ∧ (b'.R n).integ = integ ∧
    ∃ ff : Int, (2 * (256 * (b.reference n : Int) - ff * vin)).natAbs ≤ vin.natAbs ∧
      ∀ p, p ∈ b.switching n →
        let d := ff - (gain WV_COMP_KP * e).tdiv 16 - (gain WV_COMP_KD * (e - (b.R n).ePrev)).tdiv 16 + integ + (b.P p).trim + (b.R n).loss
        let duty : Int := if 63 ≤ code ∨ d < 4 then 0 else max 8 (min 224 d)
        ((∀ q, q ∈ b.switching n → b.avg16 q ≤ limit) → b.cond p = cSwitching → (b.R n).budget = false → ((b'.P p).duty : Int) = duty) ∧
        (limit < b.avg16 p → ((b'.P p).duty : Int) ≤ duty ∧ (b'.R n).froze = true)

/-- The phase faults of a period (R77, R516, Tables 3-6 and 3-12), in a region with another phase that switches below the fast limit:
the fast limit tripped in 8 periods running is FAIL_SHORT, and no more than 0.08 A where 0.4 A or more was predicted in 4 periods running
FAIL_OPEN, and each sends the phase to SAFE; no result in 4 periods running is SENSE_FAIL, and the phase goes on BLIND (R84). -/
def Claims.PeriodFaults : Prop :=
  ∀ (s : State) (t n p q : Nat) (windows : List Nat) (results : List PhaseResult) (x : PhaseResult), n < 256 → s.blk.Calm →
    s.blk.isV = true → s.blk.forcedAll = false →
    s.blk.Milds [srcFAIL_SHORT, srcSTAGE_OT, srcFAIL_OPEN, srcSENSE_FAIL, srcPOOL_EMPTY] → s.blk.reaction srcSHORT < 3 →
    s.blk.thm.stopStep = 0 → p ≠ q → p ∈ s.blk.mapped n → q ∈ s.blk.mapped n →
    let runs := fun k : Nat => s.blk.cond k = cSwitching ∧ (s.blk.P k).shedDue = false ∧ (s.blk.P k).replies = 0
    runs p → runs q → (s.blk.P q).res = some x → x.ot = false → x.fl = false → (s.blk.P q).flTrip = false →
    let duty : Rat := (s.blk.P p).duty
    let vin := s.blk.vin (quadOf n)
    let vout := s.blk.fld REG_VSENSE_VOUT n
    let faulted := fun (b' : Block) (src code cond : Nat) =>
      b'.cond p = cond ∧ b'.fld PH_STATE_FAULT p = code ∧ s.blk.Raised b' src p
    (∀ r, (s.blk.P p).res = some r → r.ot = false →
      ((r.fl = true ∨ (s.blk.P p).flTrip = true) → 7 ≤ (s.blk.P p).flRun →
        Completes (.fastLoopPeriod t (weaveOf n) windows results) s (fun b' => faulted b' srcFAIL_SHORT 2 cSafe)) ∧
      (r.fl = false → (s.blk.P p).flTrip = false → 3 ≤ (s.blk.P p).openRun →
        4 / 10 * 131072 ≤ 131072 * iModel duty vin vout (s.blk.P p).rPath +
          Config.ripple (s.blk.P p).sentEvent (s.blk.P p).sentDelay (s.blk.P p).duty vin vout →
        (s.blk.currentOf p r.code).natAbs * 100 ≤ 8 * 131072 →
        Completes (.fastLoopPeriod t (weaveOf n) windows results) s (fun b' => faulted b' srcFAIL_OPEN 1 cSafe))) ∧
    ((s.blk.P p).res = none → 3 ≤ (s.blk.P p).missRun →
      Completes (.fastLoopPeriod t (weaveOf n) windows results) s (fun b' => faulted b' srcSENSE_FAIL 3 cBlind))

/-- The period of a weave's loop, its duties and its faults. -/
def Obligations.FastLoop : Prop := Claims.LoopPeriod ∧ Claims.LoopDuty ∧ Claims.PeriodFaults

/-- A waiting swap-in starts on the lowest-numbered idle spare: CALIBRATING, stage SELECT, and the steering command of the region sent
once its current is zero; the last idle spare raises POOL_EMPTY (R71, R85, R379, Table 3-7). -/
def Claims.SwapStarts : Prop :=
  ∀ (s : State) (t w sp : Nat) (e : Swap) (rest : List Nat), w < 16 → s.blk.Calm → (s.blk.W w).run = none → s.blk.forcedAll = false →
    (s.blk.W w).queue.find? s.blk.eligible = some e → s.blk.idleSpares w = sp :: rest → s.blk.Mild srcPOOL_EMPTY →
    Completes (.swapinStart t w) s (fun b' =>
      (b'.W w).run = some e ∧ (b'.W w).spare = sp ∧ (b'.W w).queue = (s.blk.W w).queue.filter (fun x => x != e) ∧
      (b'.W w).startedAt = max s.blk.now t ∧ b'.cond sp = cCalibrating ∧ (b'.P sp).steer = (s.blk.P sp).steer ∧
      (b'.P sp).openDue = false ∧ (b'.P sp).trigDue = s.blk.isV ∧ (s.blk.isV = true → b'.fld ADC_STATUS_PHTRIG_PEND = 1) ∧
      ((∃ r, (s.blk.P sp).last = some r ∧ r.zc = true) → (b'.P sp).steerCmd = steerPulses (steerSymbols true (e.lpos / 4))) ∧
      (¬ (∃ r, (s.blk.P sp).last = some r ∧ r.zc = true) → (b'.P sp).steerCmd = []) ∧
      (b'.P sp).drive = Drive.off ∧ b'.fld WV_SWAP_STAGE w = stSelect ∧
      (∀ v, v ≠ w → b'.W v = s.blk.W v) ∧
      (∀ q, q ≠ sp → b'.P q = if q ∈ sparesOf w then (s.blk.sendOpen q).P q else s.blk.P q) ∧ b'.rgn = s.blk.rgn ∧
      (rest = [] → s.blk.Raised b' srcPOOL_EMPTY w) ∧ (rest ≠ [] → b'.flt = s.blk.flt) ∧
      s.blk.RegsKept b' [PH_STATE_COND.base + 4 * sp, WV_SWAP_STAGE.base + 4 * w, ADC_STATUS_PHTRIG_PEND.base])

/-- The steering command at the spare (R71): read with bad parity it is ignored; read as it was sent it moves the switch, which SACK
then confirms, and SELECT ends; read otherwise it moves the switch and SELECT goes on. A command to open, sent to a spare that a swap-in
has left, opens its switch (R87). -/
def Claims.Steering : Prop :=
  ∀ (s : State) (w : Nat) (symbols : BitVec 6), w < 16 →
    (steerParityOk symbols = false → Completes (.sackReceived w symbols) s (fun b' => b' = s.blk)) ∧
    (∀ p, steerParityOk symbols = true → symbols.getLsbD 5 = false → s.blk.opening w = some p →
      Completes (.sackReceived w symbols) s (fun b' =>
        b'.P p = { (s.blk.P p) with steer := none, openDue := false } ∧ s.blk.PhaseOnly b' p ∧ s.blk.RegsKept b' [])) ∧
    ((symbols.getLsbD 5 = true ∨ s.blk.opening w = none) → (s.blk.W w).run.isSome = true → s.blk.fld WV_SWAP_STAGE w = stSelect →
      (s.blk.W w).spare < 1088 → (s.blk.P (s.blk.W w).spare).steerCmd ≠ [] →
      let sp := (s.blk.W w).spare
      let moved := fun b' : Block =>
        b'.P sp = { (s.blk.P sp) with steer := if symbols.getLsbD 5 then some (16 * w + symbols.toNat / 2 % 16) else none } ∧
        s.blk.PhaseOnly b' sp
      (steerParityOk symbols = true → (s.blk.P sp).steerCmd = steerPulses symbols → Completes (.sackReceived w symbols) s (fun b' =>
        b'.fld WV_SWAP_STAGE w = stCalZero ∧ moved b' ∧ s.blk.RegsKept b' [WV_SWAP_STAGE.base + 4 * w])) ∧
      (steerParityOk symbols = true → (s.blk.P sp).steerCmd ≠ steerPulses symbols → Completes (.sackReceived w symbols) s (fun b' =>
        moved b' ∧ s.blk.RegsKept b' [])))

/-- The stages of a swap-in whose checks pass: the zero code of CAL_ZERO, taken with the current confirmed zero, and the round trip and
dead time of CAL_DELAY are kept; CAL_PULSE, for which the weave loop switches the spare, ends in the wait for the mapping boundary once
400 periods have run and 100 samples stand (R64, R85, R87, Tables 3-7, 3-8). -/
def Claims.SwapStages : Prop :=
  ∀ (s : State) (t w : Nat), w < 16 → s.blk.Calm → (s.blk.W w).run.isSome = true → (s.blk.W w).spare < 1088 → s.blk.forcedAll = false →
    let sp := (s.blk.W w).spare
    let next := fun (b' : Block) (st : Nat) (as : List Nat) =>
      b'.fld WV_SWAP_STAGE w = st ∧ b'.P sp = { (s.blk.P sp) with drive := if st = stCalPulse then Drive.loop else (s.blk.P sp).drive } ∧
      s.blk.PhaseOnly b' sp ∧ s.blk.RegsKept b' ((WV_SWAP_STAGE.base + 4 * w) :: as)
    let waits := fun b' : Block => b' = { s.blk with now := max s.blk.now t }
    (s.blk.fld WV_SWAP_STAGE w = stCalZero → ∀ mean : Nat, mean < 1024 →
      (s.blk.spareZero w = true → ((mean : Int) - (s.blk.P sp).zeroTest).natAbs ≤ 40 →
        Completes (.calZeroDone t w mean) s (fun b' => b'.fld PH_CAL_ZERO_CODE sp = mean ∧
          next b' (if s.blk.isV then stCalDelay else stCalPulse) [PH_CAL_ZERO_CODE.base + 4 * sp])) ∧
      (s.blk.spareZero w = false → Completes (.calZeroDone t w mean) s waits)) ∧
    (s.blk.fld WV_SWAP_STAGE w = stCalDelay → ∀ trip dead : Nat, roundTripOk trip = true →
      Completes (.calDelayDone t w trip dead) s (fun b' => b'.fld PH_CAL_CHAN_DLY sp = trip ∧
        b'.fld PH_CAL_DEADTIME sp = clampN 1 15 dead ∧ next b' stCalPulse [PH_CAL_ZERO_CODE.base + 4 * sp])) ∧
    (s.blk.fld WV_SWAP_STAGE w = stCalPulse → ∀ e, (s.blk.W w).run = some e →
      ((s.blk.W w).ramp = 400 → (s.blk.W w).calLog.length = 100 → s.blk.calPulseOk w (e.lpos / 4) = true →
        Completes (.calPulseDone t w) s (fun b' => next b' stMapWait [])) ∧
      ((s.blk.W w).ramp ≠ 400 ∨ (s.blk.W w).calLog.length ≠ 100 → Completes (.calPulseDone t w) s waits))

/-- A failing check or a missing SACK: the spare goes to SAFE with fault CAL_FAIL, its switch is to open by a command once its current is
zero (R71), CAL_FAIL is raised; with another idle spare the same swap-in restarts at SELECT on it, and with none it waits again and
POOL_EMPTY is raised (R87, Table 3-8). -/
def Claims.SwapFailures : Prop :=
  ∀ (s : State) (t w : Nat) (e : Swap), w < 16 → s.blk.Calm → (s.blk.W w).run = some e → (s.blk.W w).spare < 1088 →
    s.blk.inService (s.blk.W w).spare = true → s.blk.cond (s.blk.W w).spare = cCalibrating → s.blk.forcedAll = false →
    s.blk.Milds [srcCAL_FAIL, srcPOOL_EMPTY] →
    let sp := (s.blk.W w).spare
    let failed := fun b' : Block =>
      b'.cond sp = cSafe ∧ b'.fld PH_STATE_FAULT sp = 7 ∧ (b'.P sp).steer = (s.blk.P sp).steer ∧ (b'.P sp).openDue = true ∧
      (b'.P sp).steerCmd = [] ∧ (b'.P sp).drive = Drive.low ∧
      s.blk.Raised b' srcCAL_FAIL sp ∧ (∀ v, v ≠ w → b'.W v = s.blk.W v) ∧
      (s.blk.idleSpares w = [] →
        (b'.W w).run = none ∧ b'.fld WV_SWAP_STAGE w = stIdle ∧ { e with waiting := false } ∈ (b'.W w).queue ∧
        s.blk.Raised b' srcPOOL_EMPTY w ∧ (∀ q, q ≠ sp → b'.P q = s.blk.P q)) ∧
      (∀ nx rest, s.blk.idleSpares w = nx :: rest →
        (b'.W w).run = some e ∧ (b'.W w).spare = nx ∧ (b'.W w).queue = (s.blk.W w).queue ∧ b'.fld WV_SWAP_STAGE w = stSelect ∧
        b'.cond nx = cCalibrating ∧
        (∀ q, q ≠ sp → q ≠ nx → b'.P q = if q ∈ sparesOf w then (s.blk.sendOpen q).P q else s.blk.P q))
    (s.blk.fld WV_SWAP_STAGE w = stSelect → Completes (.swapinSackTimeout t w) s failed) ∧
    (s.blk.fld WV_SWAP_STAGE w = stCalZero → s.blk.spareZero w = true → ∀ mean : Nat, 40 < ((mean : Int) - (s.blk.P sp).zeroTest).natAbs →
      Completes (.calZeroDone t w mean) s failed) ∧
    (s.blk.fld WV_SWAP_STAGE w = stCalDelay → ∀ trip dead : Nat, roundTripOk trip = false →
      Completes (.calDelayDone t w trip dead) s failed) ∧
    (s.blk.fld WV_SWAP_STAGE w = stCalPulse → (s.blk.W w).ramp = 400 → (s.blk.W w).calLog.length = 100 →
      s.blk.calPulseOk w (e.lpos / 4) = false → Completes (.calPulseDone t w) s failed)

/-- Spare swap-in, from its start to its calibration's end. -/
def Obligations.SwapIn : Prop := Claims.SwapStarts ∧ Claims.Steering ∧ Claims.SwapStages ∧ Claims.SwapFailures

/-- A crossing of an unmasked detector with the path armed starts an episode: its count, DROOP_ASSERT, and the first round, a pulse
into every available phase in cyclic order from D[n] but where the fast limit holds the high side off; a further round fires up to
the limit while the path is armed (R14, R66, R75, R76, R119, R121). -/
def Claims.DroopRounds : Prop :=
  ∀ (s : State) (t n : Nat), n < 256 → s.blk.Calm →
    let others := fun b' : Block => ∀ m, m ≠ n → b'.R m = s.blk.R m
    let pulsed := fun (b' : Block) (lead : Nat) =>
      (b'.R n).fired = s.blk.available n lead ∧
      (∀ p, p ∈ s.blk.available n lead →
        b'.P p = { (s.blk.P p) with pulses := if (s.blk.P p).flHold then (s.blk.P p).pulses else (s.blk.P p).pulses + 1 }) ∧
      (∀ p, p ∉ s.blk.available n lead → b'.P p = s.blk.P p)
    (∀ crossed, BitVec.ofNat 4 crossed &&& ~~~(BitVec.ofNat 4 (s.blk.fld REG_STATUS_DET_MASK n)) ≠ 0 → armedIn (s.blk.st n) = true →
      s.blk.extest = false → (s.blk.R n).episode = false → Completes (.droopEpisodeStart t n crossed) s (fun b' =>
        b'.fld REG_DROOPCNT_EPISODES n = (s.blk.fld REG_DROOPCNT_EPISODES n + 1) % 65536 ∧ (b'.R n).episode = true ∧
        (b'.R n).rounds = 1 ∧ pulsed b' (s.blk.R n).leadK ∧ (b'.R n).droopAssert = true ∧ (b'.R n).epStart = max s.blk.now t ∧
        others b' ∧ s.blk.RegsKept b' [REG_DROOPCNT_EPISODES.base + 4 * n] ∧
        b' = { s.blk with now := b'.now, regs := b'.regs, rgn := b'.rgn, ph := b'.ph,
                          eng := { s.blk.eng with restartReq := b'.eng.restartReq } })) ∧
    (∀ crossed, BitVec.ofNat 4 crossed &&& ~~~(BitVec.ofNat 4 (s.blk.fld REG_STATUS_DET_MASK n)) = 0 ∨ armedIn (s.blk.st n) = false →
      Completes (.droopEpisodeStart t n crossed) s (fun b' => b' = { s.blk with now := max s.blk.now t })) ∧
    ((s.blk.R n).episode = true → armedIn (s.blk.st n) = true → (s.blk.R n).rounds < s.blk.roundLimit (weaveOf n) →
      Completes (.droopRound n) s (fun b' =>
        (b'.R n).rounds = (s.blk.R n).rounds + 1 ∧ pulsed b' (s.blk.R n).epLead ∧
        b'.R n = { (s.blk.R n) with rounds := (b'.R n).rounds, fired := (b'.R n).fired } ∧ others b' ∧
        b' = { s.blk with rgn := b'.rgn, ph := b'.ph })) ∧
    ((s.blk.R n).episode = false ∨ armedIn (s.blk.st n) = false ∨ s.blk.roundLimit (weaveOf n) ≤ (s.blk.R n).rounds →
      Completes (.droopRound n) s (fun b' => b' = s.blk))

/-- The end of an episode records the lowest window code and keeps the episode for the snapshot; DROOP_ASSERT falls once 100 ns have
passed since it rose, and since phase drive resumed after a loss of the phase loop (R17, R38, R121, R333). The delay chains are
calibrated against the active phase loop, and hold their codes while it does not run (R120). -/
def Claims.DroopEnds : Prop :=
  ∀ (s : State) (t n : Nat), n < 256 → s.blk.Calm →
    let others := fun b' : Block => ∀ m, m ≠ n → b'.R m = s.blk.R m
    let least := max (s.blk.R n).epStart s.blk.clk.resumedAt + 100
    let waits := fun b' : Block => b' = { s.blk with now := max s.blk.now t }
    ((s.blk.R n).episode = true → (s.blk.R n).rotDue = false → Completes (.droopEpisodeEnd t n) s (fun b' =>
      b'.fld REG_DROOPCNT_MIN_WIN n = (s.blk.R n).epMin % 64 ∧ (b'.R n).episode = false ∧ (b'.R n).epEnd = some (max s.blk.now t) ∧
      (b'.R n).epLog = (s.blk.R n).epLog ++ [((s.blk.R n).epStart, max s.blk.now t, (s.blk.R n).epMin)] ∧
      ((b'.R n).droopAssert = true ↔ s.blk.clk.assertAll = true ∨ max s.blk.now t < least) ∧ others b' ∧
      s.blk.RegsKept b' [REG_DROOPCNT_EPISODES.base + 4 * n])) ∧
    ((s.blk.R n).episode = false → s.blk.clk.assertAll = false → least ≤ max s.blk.now t →
      Completes (.droopAssertMinExpiry t n) s (fun b' =>
        b'.R n = { (s.blk.R n) with droopAssert := false } ∧ s.blk.RegionOnly b' n ∧ s.blk.RegsKept b' [])) ∧
    ((s.blk.R n).episode = true ∨ s.blk.clk.assertAll = true ∨ max s.blk.now t < least →
      Completes (.droopAssertMinExpiry t n) s waits) ∧
    (s.blk.clk.forcing = false → s.blk.clkReady s.blk.activeLoop = true → Completes (.delayChainCalibration t) s (fun b' =>
      b' = { s.blk with now := max s.blk.now t,
                        clk := { s.blk.clk with chainAt := some (max s.blk.now t), chainLoop := s.blk.fld CLK_STATUS_PH_ACTIVE } })) ∧
    (s.blk.clk.forcing = true ∨ s.blk.clkReady s.blk.activeLoop = false → Completes (.delayChainCalibration t) s waits)

/-! The droop path, sensing and the converters (chapters 4 and 12). -/

/-- The droop path, from a crossing to the end of DROOP_ASSERT. -/
def Obligations.DroopPath : Prop := Claims.DroopRounds ∧ Claims.DroopEnds

/-- A leg probe keeps the sum of the readings of the microsecond before it; 2 µs later one whose mean has moved by more than 4 mV
counts, and the second running marks the connection for the fallback; one run at clearing that passes ends the fallback; one that a
droop, slew or raise has met is deferred (R113, R114). -/
def Claims.LegProbes : Prop :=
  ∀ (s : State) (t n : Nat), n < 256 → s.blk.Calm →
    let waits := fun b' : Block => b' = { s.blk with now := max s.blk.now t }
    ((s.blk.setNow t).probeFree n = true → Completes (.probeStart t n) s (fun b' =>
      b'.R n = { (s.blk.R n) with probe := some (s.blk.R n).last16.sum, probeAt := max s.blk.now t,
                                  probeFrame := (s.blk.setNow t).probeSlot n } ∧ s.blk.RegionOnly b' n ∧ s.blk.RegsKept b' [])) ∧
    ((s.blk.setNow t).probeFree n = false → Completes (.probeStart t n) s waits) ∧
    (∀ before, (s.blk.R n).probe = some before →
      let shift := before + 128 < (s.blk.R n).last16.sum
      let ends := fun r : Rgn => Completes (.probeEnd t n) s (fun b' => b'.R n = r ∧ s.blk.RegionOnly b' n ∧ s.blk.RegsKept b' [])
      (max s.blk.now t < (s.blk.R n).probeAt + 2000 → Completes (.probeEnd t n) s waits) ∧
      ((s.blk.R n).probeAt + 2000 ≤ max s.blk.now t →
        (s.blk.sensingQuiet n = false → ends { (s.blk.R n) with probe := none, probeFrame := none }) ∧
        (s.blk.sensingQuiet n = true →
          ((s.blk.R n).clearProbe = false → shift → ends { (s.blk.R n) with
            probe := none, probeRun := (s.blk.R n).probeRun + 1,
            crackDue := (s.blk.R n).crackDue || decide ((s.blk.R n).probeRun + 1 ≥ 2) }) ∧
          ((s.blk.R n).clearProbe = false → ¬ shift → ends { (s.blk.R n) with probe := none, probeRun := 0 }) ∧
          ((s.blk.R n).clearProbe = true → shift → ends { (s.blk.R n) with probe := none, clearProbe := false, probeRun := 0 }) ∧
          ((s.blk.R n).clearProbe = true → ¬ shift → Completes (.probeEnd t n) s (fun b' =>
            b'.fld REG_STATUS_CRACKED n = 0 ∧ b'.fld REG_STATUS_SENSE_SRC n = 0 ∧ (b'.R n).clearProbe = false ∧
            (b'.R n).probe = none ∧ s.blk.RegionOnly b' n ∧ s.blk.RegsKept b' [REG_STATUS_OV.base + 4 * n])))))

/-- A trip at an unmasked comparator takes the region to DARK-FAULTED, a masked one does nothing (R108, R152); UV after 16 µs in
RUN, suspended while the REGION group's reference settles (R110, R354); a detector of a region in RUN that stays crossed for 10 µs above
its limit is masked with DET_DEAD, and the last one masked ends the episode (R117, R118); and a raise not granted for 20 µs sets
RAISE_SLOW (R123). -/
def Claims.VoltageFaults : Prop :=
  ∀ (s : State) (t n k : Nat), n < 256 → k < 4 → s.blk.Calm →
    let status := [REG_STATUS_OV.base + 4 * n]
    let waits := fun b' : Block => b' = { s.blk with now := max s.blk.now t }
    ((BitVec.ofNat 4 (s.blk.fld REG_STATUS_OVC_MASK n)).getLsbD k = true → Completes (.ovTrip t n k) s waits) ∧
    ((BitVec.ofNat 4 (s.blk.fld REG_STATUS_OVC_MASK n)).getLsbD k = false → s.blk.reaction srcOV < 3 →
      Completes (.ovTrip t n k) s (fun b' =>
        b'.st n = sFaulted ∧ b'.fld REG_PSTATE_CAUSE n = causeOv ∧ b'.fld REG_STATUS_OV n = 1 ∧ (b'.R n).hdrEn = 0 ∧
        (s.blk.engineRunning = false → (b'.R n).issue = 0 ∧ b'.fld REG_FIDX_PERMIT n = 0) ∧ b'.raisedInst srcOV n = true ∧
        (s.blk.thm.stopStep < 3 → ∀ m, m < 256 → m ≠ n → b'.st m = s.blk.st m))) ∧
    (s.blk.refSettled 0 = false → Completes (.uvTimeout t n) s waits) ∧
    (∀ a, (s.blk.R n).uvAt = some a → s.blk.st n = sRun → s.blk.refSettled 0 = true → a + 16000 ≤ max s.blk.now t →
      s.blk.Mild srcUV → Completes (.uvTimeout t n) s (fun b' =>
        b'.fld REG_STATUS_UV n = 1 ∧ s.blk.Raised b' srcUV n ∧ b'.R n = { (s.blk.R n) with uvAt := some (max s.blk.now t) } ∧
        (∀ m, m ≠ n → b'.R m = s.blk.R m) ∧ s.blk.RegsKept b' status)) ∧
    ((s.blk.setNow t).detectorStuck n k = true → s.blk.Mild srcDET_DEAD →
      Completes (.detectorStuckTimeout t n k) s (fun b' =>
        let mask := s.blk.fld REG_STATUS_DET_MASK n ||| 2 ^ k
        let counts := [REG_DROOPCNT_EPISODES.base + 4 * n]
        b'.fld REG_STATUS_DET_MASK n = mask ∧ s.blk.Raised b' srcDET_DEAD n ∧
        (b'.R n).maskEnd = false ∧ (BitVec.ofNat 4 (b'.R n).crossed).getLsbD k = false ∧
        (mask = 15 → (b'.R n).episode = false) ∧
        (mask ≠ 15 → (b'.R n).episode = (s.blk.R n).episode ∧ s.blk.RegsKept b' status) ∧
        (∀ m, m ≠ n → b'.R m = s.blk.R m) ∧ s.blk.RegsKept b' (status ++ counts))) ∧
    ((s.blk.setNow t).detectorStuck n k = false → Completes (.detectorStuckTimeout t n k) s waits) ∧
    (∀ a, (s.blk.R n).raiseAt = some a → a + 20000 ≤ max s.blk.now t → s.blk.Mild srcRAISE_SLOW →
      Completes (.raiseSlowTimeout t n) s (fun b' =>
        b'.fld REG_STATUS_RAISE_SLOW n = 1 ∧ s.blk.Raised b' srcRAISE_SLOW n ∧ s.blk.ReportOnly b' ∧ s.blk.RegsKept b' status))

/-- The leg probes and voltage faults of the regions. -/
def Obligations.SenseFaults : Prop := Claims.LegProbes ∧ Claims.VoltageFaults

/-- The conversions of a converter, a region's own or the spare that stands in for it, with the coefficients of that converter: every
64th reads the local tap, and leaves VOUT; any other of the remote pair, when the check passes, becomes VOUT, and one that fails it
counts, with VOUT at the window converter's voltage; on local fallback every one reads the tap, and becomes VOUT; one against an
unsettled reference is discarded, and a converter that serves no region changes nothing (R12, R111, R112, R113, R114, R354, R355, R358,
R361, R362). -/
def Claims.RegionConversions : Prop :=
  ∀ (s : State) (c code : Nat), c < 272 → code < 4096 →
    (s.blk.servedBy c = none → Completes (.regionSenseConversion c code) s (fun b' => b' = s.blk)) ∧
    ∀ n, s.blk.servedBy c = some n → n < 256 →
      let v := s.blk.calibrated c code
      let tapSlot := (s.blk.R n).convs + 1 = 64
      let passes := (s.blk.R n).convRun = 0 ∧ (s.blk.R n).convBad = false ∧
        (s.blk.checkRuns n = false ∨ agree9 v (s.blk.windowVolts n) = true)
      let vout := [REG_VSENSE_VOUT.base + 4 * n]
      let counted := fun b' : Block => (b'.R n).convs = (s.blk.R n).convs + 1 ∧ s.blk.RegionOnly b' n ∧ s.blk.RegsKept b' vout
      (s.blk.refSettled 0 = false → (s.blk.R n).convs + 1 < 64 → Completes (.regionSenseConversion c code) s (fun b' =>
        b'.R n = { (s.blk.R n) with convs := (s.blk.R n).convs + 1, uvAt := none } ∧ s.blk.RegionOnly b' n ∧ s.blk.RegsKept b' [])) ∧
      (s.blk.refSettled 0 = true → s.blk.bit REG_STATUS_SENSE_SRC n = false →
        (tapSlot → Completes (.regionSenseConversion c code) s (fun b' =>
          b'.R n = { (s.blk.R n) with convs := 0, tap := v, tapNew := true, tapEp := (s.blk.R n).episode } ∧
          s.blk.RegionOnly b' n ∧ s.blk.RegsKept b' [])) ∧
        ((s.blk.R n).convs + 1 < 64 → passes → Completes (.regionSenseConversion c code) s (fun b' =>
          b'.fld REG_VSENSE_VOUT n = v ∧ (b'.R n).remote = v ∧ (b'.R n).last16 = (v :: (s.blk.R n).last16).take 16 ∧ counted b')) ∧
        ((s.blk.R n).convs + 1 < 64 → s.blk.checkRuns n = true → agree9 v (s.blk.windowVolts n) = false →
          Completes (.regionSenseConversion c code) s (fun b' =>
            (b'.R n).convRun = (s.blk.R n).convRun + 1 ∧ (b'.R n).lastConv = v ∧
            b'.fld REG_VSENSE_VOUT n = s.blk.windowVolts n ∧ counted b'))) ∧
      (s.blk.refSettled 0 = true → s.blk.bit REG_STATUS_SENSE_SRC n = true → (s.blk.R n).clearProbe = false →
        (s.blk.R n).convs + 1 < 64 → passes → Completes (.regionSenseConversion c code) s (fun b' =>
          b'.fld REG_VSENSE_VOUT n = v ∧ (b'.R n).tap = v ∧ (b'.R n).remote = (s.blk.R n).remote ∧
          (b'.R n).last16 = (s.blk.R n).last16 ∧ counted b'))

/-- 256 failing conversions bring in the weave's idle spare as arbiter, or leave ADC_NO_SPARE, with the spare failed that itself fails
(R361, R362, R374); the arbiter's reading, when the reference is settled, names the failed converter, the failed window converter, or
neither (R354, R361). The spare stands in with the tick boundary that comes; that it does so at once while the engine does not run is
the model's choice (log entry 41). -/
def Claims.ConverterArbiter : Prop :=
  ∀ (s : State) (t n : Nat), n < 256 → s.blk.Calm →
    let w := weaveOf n
    let spare := ADC_SPARE_STATE.base + 4 * w
    (256 ≤ (s.blk.R n).convRun → (s.blk.R n).convBad = false →
      (s.blk.fld ADC_SPARE_STATE w = 0 → Completes (.converterCheckFail n) s (fun b' =>
        b'.fld ADC_SPARE_STATE w = 1 ∧ b'.fld ADC_SPARE_SERVES w = n ∧ (b'.W w).arb = some n ∧
        (∀ v, v ≠ w → b'.W v = s.blk.W v) ∧ b'.rgn = s.blk.rgn ∧ s.blk.RegsKept b' [spare])) ∧
      (1 < s.blk.fld ADC_SPARE_STATE w → s.blk.Mild srcADC_NO_SPARE → Completes (.converterCheckFail n) s (fun b' =>
        b'.R n = { (s.blk.R n) with convBad := true } ∧ b'.fld ADC_STATUS_NO_SPARE = 1 ∧ s.blk.Raised b' srcADC_NO_SPARE n ∧
        b'.fld ADC_SPARE_STATE w = (if s.blk.fld ADC_SPARE_SERVES w = n then 3 else s.blk.fld ADC_SPARE_STATE w) ∧
        s.blk.RegsKept b' [spare, ADC_STATUS_NO_SPARE.base]))) ∧
    (∀ code, code < 4096 → (s.blk.W w).arb = some n → s.blk.refSettled 0 = false → Completes (.arbiterDone t w code) s (fun b' =>
      b' = { s.blk with now := max s.blk.now t })) ∧
    (∀ code, code < 4096 → (s.blk.W w).arb = some n → s.blk.refSettled 0 = true →
      s.blk.Milds [srcADC_FAIL, srcWIN_FAIL, srcADC_MISMATCH] →
      let v := s.blk.calibrated (256 + w) code
      let byWindow := agree9 v (s.blk.windowVolts n)
      let byLast := agree9 v (s.blk.R n).lastConv
      (byWindow = true → Completes (.arbiterDone t w code) s (fun b' =>
        b'.fld ADC_STATUS_ADC_FAIL = 1 ∧ s.blk.Raised b' srcADC_FAIL n ∧ (b'.W w).arb = none ∧
        (s.blk.engineRunning = true → (b'.W w).standDue = true) ∧ (s.blk.engineRunning = false → b'.fld ADC_SPARE_STATE w = 2))) ∧
      (byWindow = false → byLast = true → Completes (.arbiterDone t w code) s (fun b' =>
        b'.fld ADC_STATUS_WIN_FAIL = 1 ∧ s.blk.Raised b' srcWIN_FAIL n ∧ (b'.R n).winFail = true ∧ b'.fld ADC_SPARE_STATE w = 0 ∧
        s.blk.RegsKept b' [spare, ADC_STATUS_WIN_FAIL.base])) ∧
      (byWindow = false → byLast = false → Completes (.arbiterDone t w code) s (fun b' =>
        b'.fld ADC_STATUS_ADC_MISMATCH = 1 ∧ s.blk.Raised b' srcADC_MISMATCH n ∧ (b'.R n).convRun = 0 ∧ b'.fld ADC_SPARE_STATE w = 0 ∧
        s.blk.RegsKept b' [spare, ADC_STATUS_ADC_MISMATCH.base])))

/-- The region sense converters and their check. -/
def Obligations.RegionConverters : Prop := Claims.RegionConversions ∧ Claims.ConverterArbiter

/-- An idle stage's gain is taken from a valid reply and otherwise read again, three times, and then 0x800 with CAL_FAIL; the two
periods of the replies carry no result (R360). A Yalga-V stage that is PARKED with its current zero, or the spare of a swap-in at
SELECT, is sent the trigger setting, and takes what it reads unless the parity is bad (R357). -/
def Claims.StageSettings : Prop :=
  ∀ (s : State) (t p r1 r2 : Nat), p < 1088 → s.blk.Calm → s.blk.populated p = true →
    let gets := fun (g tries : Nat) (b' : Block) =>
      b'.P p = { (s.blk.P p) with gainT := g, gainTries := tries, replies := 2 } ∧ s.blk.PhaseOnly b' p ∧ s.blk.RegsKept b' []
    (s.blk.stageIdle p = false → Completes (.gainTRead t p r1 r2) s (fun b' => b' = { s.blk with now := max s.blk.now t })) ∧
    (s.blk.stageIdle p = true →
      (∀ g, gainReply r1 r2 = some g → Completes (.gainTRead t p r1 r2) s (gets g 0)) ∧
      (gainReply r1 r2 = none → Completes (.gainTRead t p r1 r2) s (gets (s.blk.P p).gainT 1))) ∧
    (s.blk.stageIdle p = true → 0 < (s.blk.P p).gainTries →
      (∀ g, gainReply r1 r2 = some g → Completes (.gainTRetry t p r1 r2) s (gets g 0)) ∧
      (gainReply r1 r2 = none → (s.blk.P p).gainTries < 3 →
        Completes (.gainTRetry t p r1 r2) s (gets (s.blk.P p).gainT ((s.blk.P p).gainTries + 1))) ∧
      (gainReply r1 r2 = none → 3 ≤ (s.blk.P p).gainTries → (s.blk.W (weaveOfPhase p)).run = none → s.blk.inService p = true →
        s.blk.Milds [srcCAL_FAIL, srcPOOL_EMPTY] → Completes (.gainTRetry t p r1 r2) s (fun b' =>
          (b'.P p).gainT = 0x800 ∧ (b'.P p).gainTries = 0 ∧ b'.fld PH_STATE_FAULT p = 7 ∧ b'.cond p = cSafe ∧
          s.blk.Raised b' srcCAL_FAIL p))) ∧
    (let w := weaveOfPhase p
     let spare := (s.blk.W w).run.isSome = true ∧ (s.blk.W w).spare = p ∧ s.blk.fld WV_SWAP_STAGE w = stSelect
     s.blk.isV = true → s.blk.stageIdle p = true → (s.blk.cond p = cParked ∨ spare) → ∀ symbols : BitVec 11,
      Completes (.phtrigConfig p symbols) s (fun b' =>
        b'.P p = { (s.blk.P p) with
          trigDue := false, sentEvent := s.blk.fld ADC_PHTRIG_EVENT, sentDelay := s.blk.fld ADC_PHTRIG_DELAY,
          trigCmd := trigPulses (trigSymbols (s.blk.fld ADC_PHTRIG_EVENT) (s.blk.fld ADC_PHTRIG_DELAY)),
          trigEvent := if trigParityOk symbols then symbols.toNat / 512 else (s.blk.P p).trigEvent,
          trigDelay := if trigParityOk symbols then symbols.toNat / 2 % 256 else (s.blk.P p).trigDelay } ∧
        s.blk.PhaseOnly b' p ∧ s.blk.RegsKept b' [ADC_STATUS_PHTRIG_PEND.base])) ∧
    (∀ symbols : BitVec 11, s.blk.isV = false ∨ s.blk.stageIdle p = false → Completes (.phtrigConfig p symbols) s (fun b' => b' = s.blk))

/-- The command that carries a setting spells it: read without error, the stage's latch takes EVENT and DELAY as written (R357), and
the switch closes to the region the steering command names (R71). -/
def Obligations.StageCommands : Prop :=
  (∀ event delay, event < 4 → delay < 256 →
    trigParityOk (trigSymbols event delay) = true ∧ (trigSymbols event delay).toNat / 512 = event ∧
    (trigSymbols event delay).toNat / 2 % 256 = delay) ∧
  (∀ (close : Bool) (m : Nat), m < 256 →
    steerParityOk (steerSymbols close m) = true ∧ (steerSymbols close m).getLsbD 5 = close ∧
    (steerSymbols close m).toNat / 2 % 16 = m % 16) ∧
  (∀ x y : BitVec 11, trigPulses x = trigPulses y → x = y) ∧ (∀ x y : BitVec 6, steerPulses x = steerPulses y → x = y)

/-- A conversion of an auxiliary converter that a trigger started reports its code, calibrated value and voltage, unless its reference
settles; with none started a result is none (R352, R354, R356, R358). After 1 µs without events of its phase a converter of PWM mode
starts by its timer (R356). The settling of a reference sets its bit (R354); an external reference out of bounds sends its users back
to the bandgap with REF_FAULT (R354, R369). -/
def Claims.Auxiliaries : Prop :=
  ∀ (s : State) (t : Nat), s.blk.Calm →
    let waits := fun b' : Block => b' = { s.blk with now := max s.blk.now t }
    (∀ i code, i < 16 → code < 4096 →
      ((s.blk.setNow t).auxStarted i = false → Completes (.auxConversion t i code) s waits) ∧
      ((s.blk.setNow t).auxStarted i = true → s.blk.refSettled (if i < 4 then 2 else 3) = false →
        Completes (.auxConversion t i code) s (fun b' =>
          b' = { s.blk with now := max s.blk.now t, adc := { s.blk.adc with auxBusy := s.blk.adc.auxBusy.erase i } })) ∧
      ((s.blk.setNow t).auxStarted i = true → s.blk.refSettled (if i < 4 then 2 else 3) = true → s.blk.Mild srcAUX_FAIL →
        Completes (.auxConversion t i code) s (fun b' =>
          b'.fld ADC_AUX_RAW i = code ∧ b'.fld ADC_AUX_VALUE i = s.blk.calibrated (272 + i) code ∧ b'.fld ADC_AUX_VALID i = 1 ∧
          b'.adc.volts.get (fun _ => 0) i = s.blk.auxVolts i (s.blk.calibrated (272 + i) code) ∧
          b'.adc.auxBusy.get (fun _ => none) i = none ∧
          s.blk.RegsKept b' [ADC_AUX_RAW.base + 4 * i, ADC_STATUS_AUX_FAIL.base, THM_STATUS_FLASH_OK.base] ∧ b'.rgn = s.blk.rgn))) ∧
    (∀ i, i < 16 → s.blk.auxFld ADC_AUXTRIG_MODE i = 1 →
      (s.blk.adc.auxEvAt.get (fun _ => 0) i + 1000 ≤ max s.blk.now t → Completes (.auxPwmFallback t i) s (fun b' =>
        b'.adc.auxTimer.getLsbD i = true ∧ (∀ j, j ≠ i → b'.adc.auxTimer.getLsbD j = s.blk.adc.auxTimer.getLsbD j) ∧
        b' = { s.blk with now := b'.now, adc := { s.blk.adc with auxTimer := b'.adc.auxTimer } })) ∧
      (max s.blk.now t < s.blk.adc.auxEvAt.get (fun _ => 0) i + 1000 → Completes (.auxPwmFallback t i) s waits)) ∧
    (∀ g, g < 4 → Completes (.refSettled g) s (fun b' =>
      b'.refSettled g = true ∧ (∀ k, k < 4 → k ≠ g → b'.refSettled k = s.blk.refSettled k) ∧
      s.blk.RegsKept b' [ADC_STATUS_REF_SETTLED.base, THM_STATUS_FLASH_OK.base] ∧
      b' = { s.blk with regs := b'.regs, thm := b'.thm, adc := { s.blk.adc with journalWait := b'.adc.journalWait } })) ∧
    (∀ ain7 : Nat, let ext := clampN 1000 1250 (s.blk.fld ADC_REF_EXT_MV)
      (((ain7 : Int) - ext).natAbs * 50 ≤ ext → Completes (.extRefCheck t ain7) s waits) ∧
      (s.blk.bit ADC_CAL_CTL_CAL_BUSY = true → Completes (.extRefCheck t ain7) s waits) ∧
      (ext < ((ain7 : Int) - ext).natAbs * 50 → s.blk.bit ADC_CAL_CTL_CAL_BUSY = false → (∃ g, g < 4 ∧ s.blk.fld (refSel g) = 1) →
        s.blk.Mild srcREF_FAULT → Completes (.extRefCheck t ain7) s (fun b' =>
          b'.fld ADC_STATUS_REF_FAULT = 1 ∧ s.blk.Raised b' srcREF_FAULT 0 ∧
          (∀ g, g < 4 → s.blk.fld (refSel g) = 1 → b'.fld (refSel g) = 0 ∧ b'.refSettled g = false) ∧
          (∀ g, g < 4 → s.blk.fld (refSel g) ≠ 1 → b'.fld (refSel g) = s.blk.fld (refSel g) ∧ b'.refSettled g = s.blk.refSettled g))))

/-- The settings of the stages and the auxiliary converters. -/
def Obligations.StagesAndAuxiliaries : Prop := Claims.StageSettings ∧ Claims.Auxiliaries

/-! Region power states, resets and the thermal guard (chapters 5, 10 and 13). -/

/-- A forecast's wait ends in the region's exit (R138, R142): DOZE and NAP wake, DARK soft-starts from the mesh's voltage, PRIMED
begins its Dawn, each on its way to RUN; before the time is up, or with none waiting, nothing happens. A region whose conditions all
hold is ready: RUN, or the state its exit stops at, LATE when its latency has passed (R139, R140). -/
def Claims.RegionExits : Prop :=
  ∀ (s : State) (t n : Nat), n < 256 → s.blk.Calm →
    (∀ c, (s.blk.R n).exitAt = some c → c ≤ s.blk.slo → s.blk.wakeIgnored n = false →
      let others := fun b' : Block => (b'.R n).exitAt = none ∧ (b'.R n).exitTo = 0 ∧
        ∀ m, m < 256 → m ≠ n → b'.st m = s.blk.st m ∧ b'.R m = s.blk.R m
      let kept := (s.blk.R n).keptWake && (s.blk.R n).wakeAt.isSome
      ((s.blk.st n = sDoze ∨ s.blk.st n = sNap) → Completes (.forecastExitStart t n) s (fun b' =>
        b'.st n = sWaking ∧ (b'.R n).wakeAt = (if kept then (s.blk.R n).wakeAt else some (max s.blk.now t)) ∧ others b')) ∧
      (s.blk.st n = sDark → s.blk.clk.forcing = false → Completes (.forecastExitStart t n) s (fun b' =>
        b'.st n = sSoftstart ∧ b'.fld REG_VSET_APPLIED n = s.blk.fld REG_VSENSE_VOUT n ∧ (b'.R n).keptWake = true ∧ others b')) ∧
      (s.blk.st n = sPrimed → s.blk.restarting = false → Completes (.forecastExitStart t n) s (fun b' =>
        b'.st n = sDawn ∧ b'.fld REG_PSTATE_STAGE n = 0 ∧ (b'.R n).budget = true ∧ others b'))) ∧
    (∀ c, (s.blk.R n).exitAt = some c → s.blk.slo < c → Completes (.forecastExitStart t n) s (fun b' =>
      b' = { s.blk with now := max s.blk.now t })) ∧
    (s.blk.readyNow n = true → Completes (.regionReady t n) s (fun b' =>
      b'.st n = (if (s.blk.R n).exitTo = 1 then sDoze else if (s.blk.R n).exitTo = 2 then sNap else sRun) ∧
      b'.fld REG_PSTATE_STAGE n = 0 ∧ (b'.R n).wakeAt = none ∧ (b'.R n).exitTo = 0 ∧
      (b'.R n).integ = (if (s.blk.R n).exitTo = 1 ∨ (s.blk.R n).exitTo = 2 then (s.blk.R n).integ else 0) ∧
      (∀ a, (s.blk.R n).wakeAt = some a → a + (s.blk.R n).wakeLat < max s.blk.now t → b'.fld REG_PSTATE_LATE n = 1) ∧
      (∀ m, m < 256 → m ≠ n → b'.st m = s.blk.st m ∧ b'.R m = s.blk.R m))) ∧
    (s.blk.readyNow n = false → Completes (.regionReady t n) s (fun b' => b' = { s.blk with now := max s.blk.now t }))

/-- A stage of mesh soft start counts, or finds the region short below half its reference (R150, R151); one that does not read within
5 mV of its reference 20 µs after its target is DARK-FAULTED with SS_TIMEOUT (R150); the self-test of a settled mesh masks the sites
that fail, and leads to Dawn, PRIMED, or with no over-voltage comparator left to DARK-FAULTED (R116 to R118, R139, R160). -/
def Claims.SoftStart : Prop :=
  ∀ (s : State) (t n : Nat), n < 256 → s.blk.Calm → s.blk.st n = sSoftstart →
    let waits := fun b' : Block => b' = { s.blk with now := max s.blk.now t }
    (s.blk.clk.forcing = false → s.blk.belowHalf n (s.blk.reference n) = false → Completes (.softstartStage t n) s (fun b' =>
      b'.fld REG_PSTATE_STAGE n = min 15 (s.blk.fld REG_PSTATE_STAGE n + 1) ∧ b'.st n = sSoftstart ∧
      s.blk.TimeRegsOnly b' ∧ s.blk.RegsKept b' [REG_PSTATE_STATE.base + 4 * n])) ∧
    (s.blk.clk.forcing = false → s.blk.belowHalf n (s.blk.reference n) = true → s.blk.reaction srcSHORT < 3 → s.blk.thm.stopStep < 3 →
      Completes (.softstartStage t n) s (fun b' =>
        b'.st n = sFaulted ∧ b'.fld REG_PSTATE_CAUSE n = causeShort ∧ b'.raisedInst srcSHORT n = true ∧
        (∀ m, m < 256 → m ≠ n → b'.st m = s.blk.st m))) ∧
    (∀ a, (s.blk.R n).ssAt = some a → a + 20000 ≤ max s.blk.now t →
      (s.blk.meshSettled n = false → s.blk.Mild srcSS_TIMEOUT → Completes (.softstartTimeout t n) s (fun b' =>
        b'.st n = sFaulted ∧ b'.fld REG_PSTATE_CAUSE n = causeSs ∧ (b'.R n).hdrEn = 0 ∧ s.blk.Raised b' srcSS_TIMEOUT n ∧
        (s.blk.thm.stopStep < 3 → ∀ m, m < 256 → m ≠ n → b'.st m = s.blk.st m ∧ b'.R m = s.blk.R m))) ∧
      (s.blk.meshSettled n = true → Completes (.softstartTimeout t n) s waits)) ∧
    (∀ det ovc, s.blk.meshSettled n = false ∨ (s.blk.R n).ssAt = none → Completes (.detectorSelfTestDone t n det ovc) s waits) ∧
    (∀ det ovc, det < 16 → ovc < 16 → (s.blk.R n).ssAt.isSome = true → s.blk.meshSettled n = true → (s.blk.R n).maskEnd = false →
      s.blk.Milds [srcDET_DEAD, srcOVC_DEAD] →
      let mask := s.blk.fld REG_STATUS_OVC_MASK n ||| ovc
      Completes (.detectorSelfTestDone t n det ovc) s (fun b' =>
        b'.fld REG_STATUS_DET_MASK n = s.blk.fld REG_STATUS_DET_MASK n ||| det ∧ b'.fld REG_STATUS_OVC_MASK n = mask ∧
        ((det ≠ 0 ∨ ovc ≠ 0) → s.blk.Raised b' srcDET_DEAD n) ∧
        (mask ≠ 15 → b'.st n = (if (s.blk.R n).keptWake = true ∨ s.blk.groupOf n = none then sDawn else sPrimed)) ∧
        (mask = 15 → b'.st n = sFaulted ∧ b'.fld REG_PSTATE_CAUSE n = causeOvc ∧ s.blk.Raised b' srcOVC_DEAD n) ∧
        (mask ≠ 15 ∨ s.blk.thm.stopStep < 3 → ∀ m, m < 256 → m ≠ n → b'.st m = s.blk.st m ∧ b'.R m = s.blk.R m)))

/-- The exits of the regions and their soft start. -/
def Obligations.RegionStarts : Prop := Claims.RegionExits ∧ Claims.SoftStart

/-- The end of a Dawn stage (R153 to R155): the next segment closes while the feed is low, and waits a period while it is high; a
stage that waits closes its segment after seven waits; a closing waits for a later period where a segment of the weave has closed in
the present one; after stage 15 the region is ready. That a Dawn goes on like this in a chip reset, up to its weave's slot, is the
model's choice (log entry 68). -/
def Claims.Dawn : Prop :=
  ∀ (s : State) (t n : Nat), n < 256 → s.blk.Calm → s.blk.st n = sDawn → (s.blk.R n).resetDusk = false →
    s.blk.clk.forcing = false → s.blk.extest = false →
    let r := s.blk.R n
    let w := weaveOf n
    let high := ((85 * s.blk.feedRating w * 131072 : Nat) : Int) < s.blk.feed w * 100
    let others := fun b' : Block => (∀ m, m ≠ n → b'.R m = s.blk.R m) ∧ (∀ v, v ≠ w → b'.W v = s.blk.W v)
    let shut := fun (b' : Block) (k : Nat) (x : Rgn) =>
      ((s.blk.W w).closed = false →
        b'.R n = { x with hdrEn := r.hdrEn ||| (1#16 <<< k) } ∧ b'.W w = { (s.blk.W w) with closed := true }) ∧
      ((s.blk.W w).closed = true → b'.R n = x ∧ b'.W w = { (s.blk.W w) with closeQ := (s.blk.W w).closeQ ++ [(n, k)] })
    (8 ≤ r.waits → s.blk.belowHalf n (s.blk.runTarget0 n) = false → r.stage < 15 → r.seven = false → Completes (.dawnStage t n) s (fun b' =>
      b'.fld REG_PSTATE_STAGE n = r.stage + 1 ∧ b'.st n = sDawn ∧
      (¬ high → shut b' (r.stage + 1) { r with stage := r.stage + 1, waits := 8 }) ∧
      (high → b'.R n = { r with stage := r.stage + 1, waits := 1 } ∧ b'.W w = s.blk.W w ∧
        b'.fld REG_PSTATE_STRETCH n = min 63 (s.blk.fld REG_PSTATE_STRETCH n + 1)) ∧ others b' ∧
      s.blk.RegsKept b' [REG_PSTATE_STATE.base + 4 * n])) ∧
    (r.waits < 7 → high → Completes (.dawnStage t n) s (fun b' =>
      b'.R n = { r with waits := r.waits + 1, seven := r.seven || decide (r.waits + 1 = 7) } ∧ b'.W w = s.blk.W w ∧
      b'.fld REG_PSTATE_STRETCH n = min 63 (s.blk.fld REG_PSTATE_STRETCH n + 1) ∧ others b' ∧
      s.blk.RegsKept b' [REG_PSTATE_STATE.base + 4 * n])) ∧
    (r.waits = 7 → Completes (.dawnStage t n) s (fun b' =>
      shut b' r.stage { r with waits := 8 } ∧ others b' ∧ s.blk.RegsKept b' [])) ∧
    (8 ≤ r.waits → s.blk.belowHalf n (s.blk.runTarget0 n) = false → r.stage = 15 → Completes (.dawnStage t n) s (fun b' =>
      b'.st n = (if r.exitTo = 1 then sDoze else if r.exitTo = 2 then sNap else sRun) ∧ b'.fld REG_PSTATE_STAGE n = 0 ∧
      (b'.R n).hdrEn = r.hdrEn ∧ (b'.R n).budget = false ∧ others b'))

/-- The end of a Dusk stage (R156): the next segment below opens; after stage 0 the region is DARK, its outputs 0 at once where no
engine runs and otherwise with its next commit, or DARK-FAULTED with cause CAPACITY (R35, R149). The set-point does not leave before
F_PERMIT is 0 (R44); that APPLIED then reads 0 in DARK is the model's choice (log entry 17). -/
def Claims.Dusk : Prop :=
  ∀ (s : State) (t n : Nat), n < 256 → s.blk.Calm → s.blk.st n = sDusk → (s.blk.R n).resetDusk = false →
    s.blk.clk.forcing = false → s.blk.thm.stopStep < 3 →
    let r := s.blk.R n
    (0 < r.stage → r.stage < 16 → Completes (.duskStage t n) s (fun b' =>
      b'.fld REG_PSTATE_STAGE n = r.stage - 1 ∧ b'.st n = sDusk ∧
      b'.R n = { r with stage := r.stage - 1, hdrEn := r.hdrEn &&& ~~~(1#16 <<< (r.stage - 1)) } ∧
      s.blk.RegionOnly b' n ∧ s.blk.RegsKept b' [REG_PSTATE_STATE.base + 4 * n])) ∧
    (r.stage = 0 → r.capDark = false → r.keptWake = false → Completes (.duskStage t n) s (fun b' =>
      b'.st n = sDark ∧ (b'.R n).hdrEn = 0 ∧ (b'.R n).episode = false ∧
      b'.fld REG_VSET_APPLIED n =
        (if s.blk.engineRunning = true ∧ s.blk.fld REG_FIDX_PERMIT n ≠ 0 then s.blk.fld REG_VSET_APPLIED n else 0) ∧
      (s.blk.engineRunning = false → (b'.R n).issue = 0 ∧ (b'.R n).floor = 0 ∧ b'.fld REG_FIDX_PERMIT n = 0) ∧
      (s.blk.engineRunning = true → (b'.R n).issue = r.issue ∧ (b'.R n).floor = r.floor ∧
        b'.fld REG_FIDX_PERMIT n = s.blk.fld REG_FIDX_PERMIT n) ∧
      (∀ m, m < 256 → m ≠ n → b'.st m = s.blk.st m ∧ b'.R m = s.blk.R m))) ∧
    (r.stage = 0 → r.capDark = true → s.blk.Mild srcCAPACITY → Completes (.duskStage t n) s (fun b' =>
      b'.st n = sFaulted ∧ b'.fld REG_PSTATE_CAUSE n = causeCapacity ∧ (b'.R n).hdrEn = 0 ∧ s.blk.Raised b' srcCAPACITY n))

/-- In its slot of a chip reset a weave starts its regions' reset Dusk (R158). In step 4 of a stop a region whose F_CUR is 0, or 1 µs
after the commit, starts down by its state (R313, R314). -/
def Claims.ForcedDusk : Prop :=
  ∀ (s : State) (t : Nat), s.blk.Calm →
    (∀ w, w < 16 → s.blk.inReset = true → s.blk.resetAt + (15 - w) * 2500 ≤ max s.blk.now t →
      Completes (.resetDuskStart t w) s (fun b' =>
        (∀ n, n < 256 → weaveOf n = w → s.blk.st n = sRun → (s.blk.R n).resetDusk = false → (topSegment (s.blk.R n).hdrEn).isSome = true →
          b'.st n = sDusk ∧ b'.fld REG_PSTATE_STAGE n = 15 ∧ (b'.R n).resetDusk = true ∧
          (b'.R n).hdrEn = (s.blk.R n).hdrEn &&& 0x7FFF) ∧
        (∀ n, n < 256 → (weaveOf n ≠ w ∨ s.blk.st n = sDark ∨ s.blk.st n = sFaulted) → b'.st n = s.blk.st n ∧ b'.R n = s.blk.R n) ∧
        b'.flt = s.blk.flt ∧ b'.eng = s.blk.eng)) ∧
    (∀ n a, n < 256 → (s.blk.R n).downAt = some a → s.blk.thm.stopStep = 4 →
      (s.blk.fld REG_FIDX_CUR n = 0 ∨ a + 1000 ≤ max s.blk.now t) →
      ([sRun, sLeaving, sDoze, sNap, sWaking].contains (s.blk.st n) = true → Completes (.stopRegionDown t n) s (fun b' =>
        b'.st n = sDusk ∧ b'.fld REG_PSTATE_STAGE n = 15 ∧ (b'.R n).downAt = none ∧ b'.thm = s.blk.thm ∧
        (∀ m, m < 256 → m ≠ n → b'.st m = s.blk.st m ∧ b'.R m = s.blk.R m))) ∧
      ((s.blk.st n = sSoftstart ∨ s.blk.st n = sPrimed) → s.blk.bit THM_STATUS_STOP = true → Completes (.stopRegionDown t n) s (fun b' =>
        b'.st n = sDark ∧ (b'.R n).hdrEn = 0 ∧ (∀ m, m < 256 → m ≠ n → b'.st m = s.blk.st m ∧ b'.R m = s.blk.R m))))

/-- Dawn, Dusk and the Dusks that a reset or a stop forces. -/
def Obligations.DawnAndDusk : Prop := Claims.Dawn ∧ Claims.Dusk ∧ Claims.ForcedDusk

/-- The power-up to the load (R60, R395, R398, R408, R422, R424, Table 14-7): VIN good; VIN bad, which resets every domain, with
HOOP_BYP_N low from then on where it was high (R454); the always-on domain, which starts the load or waits for FIO; the built-in test,
which leaves the memories zero; and the flash's ready. What a loss of VIN keeps (the time, and the model's counters of free values and
of SLO cycles), and the values that hidden state takes at a reset, are the model's choice (log entries 55 and 6). -/
def Obligations.PowerUp : Prop :=
  ∀ (s : State) (t : Nat),
    Completes (.vinGood t) s (fun b' => b' = { s.blk with now := max s.blk.now t, vinGood := true }) ∧
    Completes (.vinBad t) s (fun b' =>
      b' = { State.reset.blk with now := max s.blk.now t, freeCtr := s.blk.freeCtr, slo := s.blk.slo, hoop := b'.hoop } ∧
      b'.hoop = { fellAt := b'.hoop.fellAt, errAt0 := max s.blk.now t, errAt1 := max s.blk.now t } ∧
      (s.blk.Calm → b'.hoop.fellAt = if s.blk.hoop.bypOpen then some (max s.blk.now t) else s.blk.hoop.fellAt) ∧
      b'.faultNLow = true ∧ b'.hoop.bypOpen = false ∧ (∀ n, (b'.R n).hdrEn = 0)) ∧
    (s.blk.vinGood = true → s.blk.aonUp = false → Completes (.alwaysOnReady t) s (fun b' =>
      b'.aonUp = true ∧ b'.aonAt = max s.blk.now t ∧ b'.flt = { s.blk.flt with powerUp := false } ∧
      (s.blk.clkReady kFIO = true → b'.img.stage = 1 ∧ b'.img.rose = max s.blk.now t + 10000 ∧ b'.fld IMG_STATUS_LOADING = 1 ∧
        s.blk.RegsKept b' [IMG_STATUS_ERR.base]) ∧
      (s.blk.clkReady kFIO = false → b'.img.waitFio = true ∧ s.blk.RegsKept b' []))) ∧
    (s.blk.flt.step = 2 → Completes (.memoryTestDone []) s (fun b' =>
      (∀ m w, m < 5 → b'.eng.word m w = 0) ∧ b'.trc.mem = [] ∧ b'.flt = { s.blk.flt with step := 3 } ∧ b'.img.stage = 1 ∧
      b'.fld IMG_STATUS_LOADING = 1)) ∧
    (s.blk.flt.step = 0 → s.blk.img.stage = 1 → s.blk.img.memTested = false → Completes (.memoryTestDone []) s (fun b' =>
      (∀ m w, m < 5 → b'.eng.word m w = 0) ∧ b'.img = { s.blk.img with memTested := true } ∧ s.blk.RegsKept b' [] ∧
      b'.trc = s.blk.trc)) ∧
    (s.blk.Calm → s.blk.img.stage = 1 → s.blk.img.rose ≤ max s.blk.now t → Completes (.flashReady t) s (fun b' =>
      b' = { s.blk with now := max s.blk.now t, img := { s.blk.img with flashRdy := true } }))

/-- CHIP_RESET (R48, R158, R515): the engine stops and commits nothing more, every output falls to 0, regions with no closed segment are
DARK and the others keep their state for the Dusk, HOOP_BYP_N falls, CRST_REQ_N is released, and no instance is cleared yet. A pulse
taken during the sequence measures the slots anew, which is the model's choice (log entry 55). -/
def Claims.ChipResetStarts : Prop :=
  ∀ (s : State) (t : Nat), s.blk.Calm → s.blk.aonUp = true → Completes (.chipReset t) s (fun b' =>
    b'.inReset = true ∧ b'.resetAt = max s.blk.now t ∧ b'.fld ENG_STATUS_STATE = eStopped ∧ b'.eng.run = .none ∧
    b'.flt.chipReq = false ∧
    b'.eng.outCom = [] ∧ b'.eng.sm = s.blk.eng.sm ∧ b'.fld ENG_MADDR_BUSY = 0 ∧ b'.flt.insts = s.blk.flt.insts ∧
    b'.flt.log = s.blk.flt.log ∧
    (∀ n, n < 256 → (b'.R n).issue = 0 ∧ (b'.R n).floor = 0 ∧ b'.fld REG_FIDX_PERMIT n = 0) ∧
    (∀ n, n < 256 → (s.blk.st n = sSoftstart ∨ s.blk.st n = sPrimed) → b'.st n = sDark) ∧
    (∀ n, n < 256 → s.blk.st n ≠ sSoftstart → s.blk.st n ≠ sPrimed → b'.st n = s.blk.st n) ∧
    b'.hoop.bypOpen = false ∧ b'.fld IMG_STATUS_LOADING = 0 ∧ b'.quiesceReq = false)

/-- CHIP_RESET_END (R7, R158, R422): every register takes its Reset value with the RWS fields kept, but that SLO_RDY tells whether
SLO runs and GAP whether a frame was missed meanwhile (R282); no instance stands; the logs stay, as does a chip-reset request made
meanwhile (R47). That the ready flags are found again, so that the start-up waits for FIO, and that the hidden state of regions, phases
and hints is empty then are the model's choice (log entries 55 and 6). -/
def Claims.ChipResetEnds : Prop :=
  ∀ (s : State) (t : Nat), s.blk.Calm → s.blk.WindowWf → s.blk.inReset = true → s.blk.everyDark = true → s.blk.clkReady kSLO = true →
    Completes (.chipResetEnd t) s (fun b' =>
      (∀ a, a ≠ CLK_STATUS_MODE.base → a ≠ PWR_STATUS_GAP.base → b'.reg a =
        (match findReg a with
         | some d => (resetWord a &&& ~~~d.rws) ||| (s.blk.reg a &&& d.rws)
         | none => resetWord a)) ∧
      b'.clkReady kSLO = true ∧ (∀ k, 0 < k → k < 8 → b'.clkReady k = false) ∧
      b'.bit PWR_STATUS_GAP = s.blk.red.gapDue ∧ b'.inReset = false ∧ b'.aonUp = s.blk.aonUp ∧ b'.flt.insts = [] ∧
      b'.flt.log = s.blk.flt.log ∧ b'.flt.chipReq = s.blk.flt.chipReq ∧ b'.img.wear = s.blk.img.wear ∧ b'.rgn = [] ∧ b'.ph = [] ∧
      b'.hint = [] ∧ b'.img.waitFio = true)

/-- The chip reset, from its start to its end. -/
def Obligations.ChipReset : Prop := Claims.ChipResetStarts ∧ Claims.ChipResetEnds

/-- A temperature sample (R299, R300, R309, R316, R317): the code and reading of every sensor, THROTTLE while a guard temperature is
above its threshold, the hottest region, and the flash window as the readings and supplies stand. -/
def Claims.TemperatureSample : Prop :=
  ∀ (s : State) (t : Nat) (counts : List RingCount), s.blk.Calm → s.blk.aonUp = true → counts.length = 272 →
    Completes (.tempSample t counts) s (fun b' =>
      (∀ i, i < 272 →
        (∀ c, counts[i]? = some c → 0 < c.nr → 65536 * c.ns / c.nr < 65536 → b'.fld THM_SENSOR_CODE i = 65536 * c.ns / c.nr) ∧
        b'.sensorT i = readingOf i (s.blk.calCodes i) (sampleCode (counts.getD i ⟨0, 0⟩))) ∧
      (b'.bit THM_STATUS_THROTTLE = true ↔ ∃ n, n < 256 ∧ 400 * b'.thm.thr < b'.guardT n) ∧
      b'.fld THM_STATUS_HOT_REGION = b'.hottest ∧ b'.bit THM_STATUS_FLASH_OK = b'.flashWindow)

/-- QUIESCE_ACK, or 150 µs without it, takes an orderly stop to its step 3 (R313), the second with THM_ACK_LATE; a running engine
commits it. The flash window that has held for 10 ms allows operations again (R317). -/
def Claims.StopSteps : Prop :=
  ∀ (s : State) (t : Nat), s.blk.Calm →
    (s.blk.thm.stopStep = 1 → s.blk.engineRunning = true → Completes (.quiesceAck t) s (fun b' =>
      b' = { s.blk with now := max s.blk.now t, quiesceAck := true, thm := { s.blk.thm with stopStep := 3 } })) ∧
    (s.blk.thm.stopStep = 1 → s.blk.engineRunning = false → Completes (.quiesceAck t) s (fun b' =>
      ∀ n, n < 256 → (b'.R n).issue = 0 ∧ (b'.R n).floor = 0 ∧ b'.fld REG_FIDX_PERMIT n = 0)) ∧
    (s.blk.thm.stopStep ≠ 1 → Completes (.quiesceAck t) s (fun b' =>
      b' = { s.blk with now := max s.blk.now t, quiesceAck := true })) ∧
    (s.blk.thm.stopStep = 1 → s.blk.thm.stopAt + 150000 ≤ max s.blk.now t → s.blk.Mild srcTHM_ACK_LATE → s.blk.engineRunning = true →
      Completes (.quiesceAckTimeout t) s (fun b' =>
        b'.thm = { s.blk.thm with stopStep := 3 } ∧ b'.fld THM_STATUS_ACK_LATE = 1 ∧ s.blk.Raised b' srcTHM_ACK_LATE 0 ∧
        b'.rgn = s.blk.rgn ∧ s.blk.RegsKept b' [THM_STATUS_ACK_LATE.base])) ∧
    (s.blk.bit THM_STATUS_FLASH_OK = true → s.blk.thm.windowAt + 10000000 ≤ max s.blk.now t →
      Completes (.flashWindowReopen t) s (fun b' =>
        b'.thm = { s.blk.thm with flashShut := false } ∧ b' = { s.blk with now := max s.blk.now t, thm := b'.thm, img := b'.img } ∧
        (s.blk.img.commit = none → b'.img = s.blk.img)))

/-- The thermal guard's samples and the steps of its stop. -/
def Obligations.ThermalGuard : Prop := Claims.TemperatureSample ∧ Claims.StopSteps

/-! The clock sources (chapter 11). -/

/-- The loss of a source other than SLO and the active phase loop (R328): its ready flag clears, its bit of CLK_MON is set and its
source raised, and no other source's readiness changes; a source that is not ready is not lost again. With XA the loops that follow it
enter holdover (R331); with PLL-E the engine clock stops, the tick in flight is aborted and commits nothing (R336), and the output stage
holds at 0 what a class S event has put there (R380); the service domain moves from a lost FIO to PLL-E, or from PLL-E to FIO, or stops
where neither is ready (R337). A monitor window counts the windows in band of each source that runs, up to two (R327), and a count out
of bounds of one ready source loses it; that a gated source keeps its count is the model's choice (log entry 37). -/
def Claims.SourceLoss : Prop :=
  ∀ (s : State) (t k : Nat), 0 < k → k < 8 → k ≠ s.blk.activeLoop → s.blk.Calm → s.blk.Milds [lossSrc k, srcENG_STUCK] →
    s.blk.flt.waiting = [] → s.blk.thm.stopStep = 0 →
    let holdover := fun b' : Block =>
      (s.blk.fld CLK_STATUS_REF = 0 → b'.fld CLK_STATUS_REF = 3 ∧ b'.clk.holdAt = max s.blk.now t) ∧
      (s.blk.fld CLK_STATUS_REF ≠ 0 → b'.fld CLK_STATUS_REF = s.blk.fld CLK_STATUS_REF ∧ b'.clk.holdAt = s.blk.clk.holdAt)
    let stopped := fun b' : Block =>
      b'.eng.clockStopped = true ∧ b'.eng.sm = s.blk.eng.sm ∧ b'.eng.outCom = s.blk.eng.outCom ∧
      (s.blk.fld ENG_STATUS_STATE ∈ [eRunning, eHalted, eInit] → b'.fld ENG_STATUS_STATE = eClockStopped) ∧
      (s.blk.engineRunning = true → b'.eng.run = .none ∧ b'.eng.smPend = [] ∧ b'.eng.outBuf = s.blk.eng.outCom ∧
        b'.fld ENG_CYCLES_LAST = 0x3FF ∧ b'.eng.aborts = s.blk.eng.aborts + 1) ∧
      (∀ n, n < 256 → (s.blk.heldZero n = true → (b'.R n).issue = 0 ∧ (b'.R n).floor = 0 ∧ b'.fld REG_FIDX_PERMIT n = 0) ∧
        (s.blk.heldZero n = false → b'.R n = s.blk.R n))
    let handed := fun (own other src : Nat) (b' : Block) => k = own → s.blk.fld CLK_STATUS_SVC_SRC = src →
      (s.blk.clkReady other = true → b'.fld CLK_STATUS_SVC_SRC = 1 - src ∧ b'.clk.svcStopped = false) ∧
      (s.blk.clkReady other = false → b'.fld CLK_STATUS_SVC_SRC = src ∧ b'.clk.svcStopped = true)
    let lost := fun b' : Block =>
      b'.clkReady k = false ∧ b'.fld ⟨CLK_MON_SLO_STOP.base, k, k⟩ = 1 ∧ b'.clk.lost.getLsbD k = true ∧
      b'.clk.inBand.get (fun _ => 0) k = 0 ∧
      s.blk.Raised b' (lossSrc k) 0 ∧ (∀ j, j < 8 → j ≠ k → b'.clkReady j = s.blk.clkReady j) ∧ b'.ph = s.blk.ph ∧
      (k = kXA → holdover b') ∧ (k = kPLLE → stopped b') ∧ (k ≠ kPLLE → b'.rgn = s.blk.rgn) ∧
      handed kFIO kPLLE 0 b' ∧ handed kPLLE kFIO 1 b'
    let runs := fun j => s.blk.gateOn j (s.blk.fld CLK_STATUS_MODE) = true ∨ s.blk.eng.restartReq = true
    let band := fun (b : Block) j => b.clk.inBand.get (fun _ => 0) j
    (s.blk.clkReady k = true → Completes (.clockSourceLoss t k) s lost) ∧
    (s.blk.clkReady k = false → Completes (.clockSourceLoss t k) s (fun b' => b' = { s.blk with now := max s.blk.now t })) ∧
    (∀ counts : List Nat, s.blk.clkReady kSLO = true →
      ((∀ i, i < 6 → s.blk.countOut (i + 1) (counts.getD i 0) = false) → Completes (.freqMonitorWindow t counts) s (fun b' =>
        (∀ j, 1 ≤ j → j ≤ 6 → runs j → band b' j = min 2 (band s.blk j + 1)) ∧
        (∀ j, 1 ≤ j → j ≤ 6 → ¬ runs j → band b' j = band s.blk j) ∧
        b' = { s.blk with now := max s.blk.now t, clk := { s.blk.clk with inBand := b'.clk.inBand } })) ∧
      (k < 7 → s.blk.clkReady k = true → runs k → s.blk.countOut k (counts.getD (k - 1) 0) = true →
        (∀ i, i < 6 → i + 1 ≠ k → s.blk.countOut (i + 1) (counts.getD i 0) = false) →
        Completes (.freqMonitorWindow t counts) s lost))

/-- SLO_STOP is a class S event for the whole block (R330, R380): every phase in service is SAFE, every region not DARK-FAULTED is
DARK, and with no engine running every output is 0 at once. -/
def Claims.SloStops : Prop :=
  ∀ (s : State) (t : Nat), s.blk.Calm → s.blk.Mild srcPOOL_EMPTY → s.blk.reaction srcSLO_STOP < 3 →
    Completes (.sloStop t) s (fun b' =>
      b'.clkReady kSLO = false ∧ b'.fld CLK_MON_SLO_STOP = 1 ∧ b'.raisedInst srcSLO_STOP 0 = true ∧
      (∀ p, p < 1088 → s.blk.inService p = true → b'.cond p = cSafe) ∧
      (∀ n, n < 256 → b'.st n = (if s.blk.st n = sFaulted then sFaulted else sDark) ∧
        (s.blk.engineRunning = false → (b'.R n).issue = 0 ∧ (b'.R n).floor = 0 ∧ b'.fld REG_FIDX_PERMIT n = 0) ∧
        (s.blk.st n ≠ sFaulted → (b'.R n).hdrEn = 0)))

/-- The loss of the active phase loop (R333): every phase in service is forced to SAFE and keeps its condition for the return,
DROOP_ASSERT rises everywhere, the regions keep their states, and with no engine running ISSUE_LIMIT, FLOOR and F_PERMIT fall at once
(Table 13-2). -/
def Claims.PhaseLoopLost : Prop :=
  ∀ (s : State) (t : Nat), s.blk.Calm → s.blk.clk.forcing = false → s.blk.Milds [lossSrc s.blk.activeLoop, srcPOOL_EMPTY] →
    s.blk.reaction srcPH_ACTIVE_LOSS < 3 → s.blk.thm.stopStep < 3 →
    Completes (.phActiveLoss t) s (fun b' =>
      b'.clk.forcing = true ∧ b'.clk.failAt = max s.blk.now t ∧ b'.clkReady s.blk.activeLoop = false ∧
      b'.raisedInst srcPH_ACTIVE_LOSS 0 = true ∧ b'.fld CLK_MON_PH_ACTIVE_LOSS = 1 ∧
      (∀ p, p < 1088 → s.blk.inService p = true → s.blk.cond p ≠ cSafe → b'.cond p = cSafe ∧ (b'.P p).saved = some (s.blk.cond p)) ∧
      (∀ n, n < 256 → (b'.R n).droopAssert = true ∧ b'.st n = s.blk.st n ∧
        (s.blk.engineRunning = false → (b'.R n).issue = 0 ∧ (b'.R n).floor = 0 ∧ b'.fld REG_FIDX_PERMIT n = 0)))

/-- What the loss of clock sources does. -/
def Obligations.ClockLoss : Prop := Claims.SourceLoss ∧ Claims.SloStops ∧ Claims.PhaseLoopLost

/-- The failover (R333, R334): the standby becomes the active loop, the gap is reported, and a phase that no fault holds returns to
the condition it kept. Without it for 2 µs the phase clocks have collapsed: every region not DARK-FAULTED is DARK (R334). -/
def Claims.Failover : Prop :=
  ∀ (s : State) (t : Nat), s.blk.Calm → s.blk.clk.forcing = true → s.blk.clk.collapsed = false →
    let waits := fun b' : Block => b' = { s.blk with now := max s.blk.now t }
    (s.blk.standbyUp = true → Completes (.failoverResume t) s (fun b' =>
      b'.clk.forcing = false ∧ b'.clk.assertAll = false ∧ b'.clk.resumedAt = max s.blk.now t ∧
      b'.fld CLK_STATUS_PH_ACTIVE = 1 - s.blk.fld CLK_STATUS_PH_ACTIVE ∧
      b'.fld CLK_FAILOVER_COUNT = min 255 (s.blk.fld CLK_FAILOVER_COUNT + 1) ∧
      b'.fld CLK_FAILOVER_GAP = min (max s.blk.now t - s.blk.clk.failAt) 0xFFFE ∧
      (∀ p c, p < 1088 → (s.blk.P p).saved = some c → c < 8 → s.blk.cond p = cSafe →
        { s.blk with clk := { s.blk.clk with forcing := false } }.heldSafe p = false → b'.cond p = c ∧ (b'.P p).saved = none) ∧
      (∀ n, n < 256 → b'.st n = s.blk.st n) ∧ b'.flt = s.blk.flt)) ∧
    (s.blk.standbyUp = false → Completes (.failoverResume t) s waits) ∧
    (s.blk.clk.failAt + 2000 ≤ max s.blk.now t → s.blk.Mild srcCOLLAPSE → s.blk.thm.stopStep < 3 →
      Completes (.phaseClockCollapse t) s (fun b' =>
        b'.clk.collapsed = true ∧ b'.fld CLK_FAILOVER_GAP = 0xFFFF ∧ b'.fld CLK_MON_COLLAPSE = 1 ∧ s.blk.Raised b' srcCOLLAPSE 0 ∧
        (∀ n, n < 256 → b'.st n = (if s.blk.st n = sFaulted then sFaulted else sDark)))) ∧
    (max s.blk.now t < s.blk.clk.failAt + 2000 → Completes (.phaseClockCollapse t) s waits)

/-- A source that may become ready becomes so (R327): FIO starts the load that waits for it (Table 14-7), and a phase loop in its role
ends a forcing (R334). One ready again for 1 ms is back in its role (R329), with which alignment to XB is acquired again (R341); the
loops return to XA after 10 ms, or leave a holdover for XB or FIO (R331). -/
def Claims.SourceReturn : Prop :=
  ∀ (s : State) (t k : Nat), k < 8 → s.blk.Calm →
    (s.blk.mayBeReady k = true → s.blk.clkReady k = false → s.blk.clk.svcStopped = false →
      (s.blk.clk.collapsed = true → s.blk.clk.sleeping = false) → Completes (.clockSourceReady t k) s (fun b' =>
      b'.clkReady k = true ∧ b'.clk.readyAt.get (fun _ => none) k = some (max s.blk.now t) ∧
      (∀ j, j < 8 → j ≠ k → b'.clkReady j = s.blk.clkReady j) ∧
      (k = kFIO → s.blk.img.waitFio = true → b'.img.stage = 1 ∧ b'.fld IMG_STATUS_LOADING = 1) ∧
      ((k = kPLLP ∨ k = kPLLS) → s.blk.clk.lost.getLsbD k = false → b'.clk.forcing = false) ∧ b'.flt = s.blk.flt)) ∧
    (s.blk.mayBeReady k = false ∨ s.blk.clkReady k = true → Completes (.clockSourceReady t k) s (fun b' =>
      b' = { s.blk with now := max s.blk.now t })) ∧
    (s.blk.clk.lost.getLsbD k = true → { s.blk with now := max s.blk.now t }.readyFor k 1000000 = true →
      Completes (.sourceRecovered t k) s (fun b' =>
        b'.clk.lost.getLsbD k = false ∧ (∀ j, j ≠ k → b'.clk.lost.getLsbD j = s.blk.clk.lost.getLsbD j) ∧
        (k = kXB → s.blk.bit CLK_PSYNC_EN = true → b'.fld CLK_STATUS_REF = 1) ∧
        ((k = kPLLP ∨ k = kPLLS) → b'.clk.forcing = false) ∧
        ((k ≠ kPLLP ∧ k ≠ kPLLS) ∨ s.blk.clk.forcing = false →
          ((k ≠ kXB ∨ s.blk.bit CLK_PSYNC_EN = false) → s.blk.RegsKept b' []) ∧
          b' = { s.blk with now := b'.now, regs := b'.regs, clk := { s.blk.clk with lost := b'.clk.lost } }))) ∧
    (let xa := { s.blk with now := max s.blk.now t }.readyFor kXA 10000000
     let xb := s.blk.bit CLK_CTL_REF_AUTO = true ∧ s.blk.clkReady kXB = true
     let refIs := fun (v : Nat) (b' : Block) => b'.fld CLK_STATUS_REF = v ∧ s.blk.RegsKept b' [CLK_STATUS_REF.base] ∧ b'.clk = s.blk.clk
     (s.blk.fld CLK_STATUS_REF ≠ 0 → xa = true → (s.blk.bit CLK_PSYNC_EN = false ∨ s.blk.fld CLK_STATUS_REF ≠ 1) →
       Completes (.loopRereference t) s (refIs 0)) ∧
     (s.blk.fld CLK_STATUS_REF = 3 → xa = false → xb → Completes (.loopRereference t) s (refIs 1)) ∧
     (s.blk.fld CLK_STATUS_REF = 3 → xa = false → ¬ xb → s.blk.clk.holdAt + 10000000 ≤ max s.blk.now t → s.blk.clkReady kFIO = true →
       Completes (.loopRereference t) s (refIs 2)))

/-- A turning point of the spread takes the settings written, unless the spread is suspended (R339); the lock of an alignment is
reported (R340). -/
def Claims.SpreadAndLock : Prop :=
  ∀ s : State,
    (s.blk.bit CLK_STATUS_SSC_SUPPR = false → Completes .sscTurningPoint s (fun b' =>
      b' = { s.blk with clk := { s.blk.clk with
        sscDepth := min (s.blk.fld CLK_SSC_DEPTH) 16, sscRate := s.blk.fld CLK_SSC_RATE, sscDither := s.blk.bit CLK_SSC_DITHER,
        sscHalf := 50000 / ((s.blk.fld CLK_SSC_RATE + 1 : Nat) : Rat) *
          (1 + ((if s.blk.bit CLK_SSC_DITHER then s.blk.clk.sscDraw.toInt else 0 : Int) : Rat) / 256) } })) ∧
    (s.blk.bit CLK_STATUS_SSC_SUPPR = true → Completes .sscTurningPoint s (fun b' => b' = s.blk)) ∧
    (s.blk.bit CLK_PSYNC_EN = true → s.blk.clkReady kXB = true → s.blk.fld CLK_STATUS_REF = 1 → Completes .psyncLock s (fun b' =>
      b'.fld CLK_STATUS_PSYNC_LOCKED = 1 ∧ s.blk.RegsOnly b' ∧ s.blk.RegsKept b' [CLK_STATUS_PSYNC_LOCKED.base]))

/-- The return of clock sources, the failover, and what follows the loops. -/
def Obligations.ClockReturn : Prop := Claims.Failover ∧ Claims.SourceReturn ∧ Claims.SpreadAndLock

/-! The image load, the journal and the PMBus (chapter 14). -/

/-- A section's bytes pass the checks of its own type, in a block of the build and with the DET of the bank header (R414). -/
def bodyPasses (buildV det : Bool) (e : Sect) (d : List Byte) : Prop :=
  ∀ b : Block, b.isV = buildV → b.img.staged.det = det → lowestCode (b.loadBody e.ty d).codes = none

/-- What a load has taken from the sections of a header, where `sect` gives the bytes read of each, and its outcome (R414, R440): the
operating table, in the table memory unless the journal's has taken its place; the coefficients and weights by their load records, in
order; the program with its entries; and, kept for the acceptance, the limits, the calibration, the ring and the groups. -/
def sectionsLoaded (b b' : Block) (h : Header) (sect : Sect → List Byte × Nat) : Prop :=
  let recs := (h.used.filter (fun e => e.ty = 2 || e.ty = 4)).flatMap (fun e =>
    (loadRecs (sect e).1.length ((sect e).1.drop (if e.ty = 2 then 16 else 0))).getD [])
  b'.eng.cm = (b.eng.applyRecs recs).cm ∧ b'.eng.wm = (b.eng.applyRecs recs).wm ∧
  ∀ e, e ∈ h.used →
    let d := (sect e).1
    (e.ty ≠ 2 → b'.fld (sectFld e.ty) = (sect e).2) ∧
    (e.ty = 1 → b'.img.staged.tableOk = true ∧ (b'.img.staged.tableJ = false → b'.eng.tm = tableWords d)) ∧
    (e.ty = 3 → b'.eng.initEntry = leAt d 0 2 ∧ b'.eng.tickEntry = leAt d 2 2 ∧
      b'.eng.pm = layWords [] 0 ((chunks 16 (d.drop 16)).map (fun w => BitVec.ofNat 128 (leNat w)))) ∧
    (e.ty = 5 → b'.img.staged.margin = d.take 32 ∧ b'.img.staged.writes =
      (chunks 8 (bytesAt d 36 (8 * leAt d 32 4))).map (fun w => (leAt w 0 4, BitVec.ofNat 32 (leAt w 4 4)))) ∧
    (e.ty = 6 → b'.img.staged.temps = pairs (d.take 1088) ∧ b'.img.staged.phs = pairs (bytesAt d 1088 4352) ∧
      b'.img.staged.coefs = (leWords 4 (d.drop 5440)).map (BitVec.ofNat 32)) ∧
    (e.ty = 7 → b'.img.staged.ring = some (ringCfg d)) ∧
    (e.ty = 8 → b'.img.staged.groups = some ((d.take 256).map (·.toNat), (leWords 4 (d.drop 256)).map (BitVec.ofNat 32)))

/-- IMAGE_LOAD (R3, R410 to R419): the strap is sampled and the build's positions populated; then either every section is through and
the load waits for its end, with IMG_DIGEST the SHA-256 of the header's section table followed by the sections' bytes in its order, or
the image is refused and minimum safe mode entered. A header that passes its checks, with every section read good from one of the banks
and passing those of its own, is through, and its sections are loaded; a header that does not pass is refused with the code of its
check, and a flash whose parameters do not serve, or that holds no header, with the code of Table 14-6. -/
def Claims.ImageLoads : Prop :=
  ∀ (s : State) (t : Nat) (buildV : Bool) (f : Flash) (dly : List Nat), s.blk.Calm → s.blk.img.stage = 1 → s.blk.img.flashRdy = true →
    s.blk.img.memTested = true → (s.blk.img.accepted = false ∨ s.blk.flt.step ≠ 0) → s.blk.img.limitRegs.all writeAllowed = true →
    let refused := fun b' : Block =>
      b'.fld IMG_STATUS_SAFE = 1 ∧ b'.img.stage = 0 ∧ b'.img.accepted = false ∧ b'.fld ENG_STATUS_STATE = eStopped ∧
      b'.fld IMG_STATUS_LOADING = 0
    Completes (.imageLoad t buildV f dly) s (fun b' =>
      b'.bit CFG_STRAP_BUILD = buildV ∧ b'.fld CFG_STRAP_SAMPLED = 1 ∧ (∀ p, p < 1088 → b'.populated p = populatedIn buildV p) ∧
      ((b'.img.stage = 2 ∧ b'.fld IMG_STATUS_SAFE = s.blk.fld IMG_STATUS_SAFE) ∨ refused b')) ∧
    (let p := primaryOf (headerOf f 0) (headerOf f 1)
     ∀ h, headerOf f p = some h → f.sfdpOk = true → 0x04000000 ≤ f.density →
      let sect := sectionBytes f p (headerOf f (1 - p))
      let digest := sha256 (bytesAt h.bytes 0x40 256 ++ (h.used.map (fun e => (sect e).1)).flatten)
      Completes (.imageLoad t buildV f dly) s (fun b' =>
        b'.img.stage = 2 → ∀ i, i < 8 → b'.fld IMG_DIGEST_DIGEST i = leAt digest (4 * i) 4) ∧
      (headerCheck h buildV = none → (∀ e, e ∈ h.used → (sect e).2 ≠ 3 ∧ bodyPasses buildV h.det e (sect e).1) →
        Completes (.imageLoad t buildV f dly) s (fun b' =>
          b'.img.stage = 2 ∧ b'.fld IMG_STATUS_SAFE = s.blk.fld IMG_STATUS_SAFE ∧ b'.fld IMG_STATUS_PRIMARY = p ∧
          b'.img.allPassed = true ∧ (b'.img.digestOk = true ↔ digest = bytesAt h.bytes 0x20 32) ∧ b'.img.staged.det = h.det ∧
          (∀ i, i < 8 → b'.fld IMG_DIGEST_DIGEST i = leAt digest (4 * i) 4) ∧ sectionsLoaded s.blk b' h sect)) ∧
      (∀ r, headerCheck h buildV = some r → Completes (.imageLoad t buildV f dly) s (fun b' =>
        refused b' ∧ b'.fld IMG_STATUS_ERR = r.1 ∧ b'.fld IMG_STATUS_SECTION = r.2))) ∧
    (f.sfdpOk = false → Completes (.imageLoad t buildV f dly) s (fun b' => refused b' ∧ b'.fld IMG_STATUS_ERR = 2)) ∧
    (f.sfdpOk = true → f.density < 0x04000000 → Completes (.imageLoad t buildV f dly) s (fun b' =>
      refused b' ∧ b'.fld IMG_STATUS_ERR = 3)) ∧
    (f.sfdpOk = true → 0x04000000 ≤ f.density → headerOf f 0 = none → headerOf f 1 = none →
      Completes (.imageLoad t buildV f dly) s (fun b' => refused b' ∧ b'.fld IMG_STATUS_ERR = 1))

/-- The end of a load (R416, R417, R423): the digest's result is shown; a mismatch with every section passing is refused; a trusted
image is accepted, as is one whose IMG_TRUSTED rises in the wait; a load or a wait that lasts too long is refused. CFG_STRAP.TRUSTED
shows the pin (R49, R63). -/
def Claims.LoadEnds : Prop :=
  ∀ (s : State) (t : Nat), s.blk.Calm → s.blk.img.limitRegs.all writeAllowed = true →
    s.blk.img.staged.writes.all (fun w => writeAllowed w.1) = true →
    let refused := fun (code : Nat) (b' : Block) =>
      b'.fld IMG_STATUS_SAFE = 1 ∧ b'.img.stage = 0 ∧ b'.img.accepted = false ∧ b'.fld IMG_STATUS_ERR = code
    let accepted := fun b' : Block => b'.img.accepted = true ∧ b'.img.stage = 0
    (s.blk.img.stage = 2 →
      (s.blk.img.allPassed = true → s.blk.img.digestOk = false → ∀ tr, Completes (.digestReady t tr) s (fun b' =>
        refused 6 b' ∧ b'.fld IMG_STATUS_DIGEST_READY = 1 ∧ b'.fld IMG_STATUS_DIGEST_OK = 0)) ∧
      ((s.blk.img.allPassed = false ∨ s.blk.img.digestOk = true) → Completes (.digestReady t true) s (fun b' =>
        accepted b' ∧ b'.fld IMG_STATUS_DIGEST_READY = 1 ∧ b'.fld IMG_STATUS_LOADING = 0 ∧
          b'.fld ENG_STATUS_DET = (if s.blk.img.staged.det then 1 else 0) ∧
          (b'.flt.step ≠ 1 → b'.fld ENG_CYCLES_STATIC = s.blk.eng.static % 1024))) ∧
      ((s.blk.img.allPassed = false ∨ s.blk.img.digestOk = true) → Config.trustReq = true → Completes (.digestReady t false) s (fun b' =>
        b'.img.stage = 3 ∧ b'.img.accepted = s.blk.img.accepted ∧ b'.fld IMG_STATUS_DIGEST_READY = 1)) ∧
      (s.blk.img.rose + 1200000000 ≤ max s.blk.now t → ∀ v, Completes (.loadTimeout t v) s (refused 0x19))) ∧
    (s.blk.img.stage = 1 → s.blk.img.rose + 1200000000 ≤ max s.blk.now t → ∀ v,
      Completes (.loadTimeout t v) s (fun b' => refused 0x19 b' ∧ b'.bit CFG_STRAP_BUILD = v)) ∧
    (s.blk.img.stage = 3 →
      Completes (.imgTrustedRise t true) s accepted ∧
      (s.blk.img.digestAt + 100000000 ≤ max s.blk.now t → Completes (.trustTimeout t) s (refused 0x18))) ∧
    Completes (.imgTrustedRise t false) s (fun b' => b' = { s.blk with now := max s.blk.now t, trustedPin := false } ∧
      Fld.get CFG_STRAP_TRUSTED (b'.hostRead CFG_STRAP_TRUSTED.base) = 0) ∧
    (s.blk.img.stage = 0 →
      Completes (.imgTrustedRise t true) s (fun b' =>
        b' = { s.blk with now := max s.blk.now t, trustedPin := true, img := { s.blk.img with trustDue := false } } ∧
        Fld.get CFG_STRAP_TRUSTED (b'.hostRead CFG_STRAP_TRUSTED.base) = 1) ∧
      (s.blk.img.digestAt + 100000000 ≤ max s.blk.now t → s.blk.img.trustDue = true → s.blk.Mild srcIMG_UNTRUSTED →
        Completes (.trustTimeout t) s (fun b' => b'.fld IMG_STATUS_UNTRUSTED = 1 ∧ s.blk.Raised b' srcIMG_UNTRUSTED 0 ∧
          b'.img.trustDue = false ∧ s.blk.RegsKept b' [IMG_STATUS_ERR.base])))

/-- The image load and its end. -/
def Obligations.ImageLoad : Prop := Claims.ImageLoads ∧ Claims.LoadEnds

/-- A commit (R428, R429): when it may start, every pending kind is frozen in it, within the length of its area (R426), and its first
operation starts; an operation that ends well makes way for the next, and one that fails or takes too long abandons the commit, whose
kinds stay pending; with every operation done and the record read back it is the newest, and one of the re-characterised table empties
the wear log and ends the staging (R432). That IMG_JSEQ, VALID and BANKS, those of the kinds committed, change as the commit completes
is the model's choice (log entry 47). -/
def Obligations.JournalCommit : Prop :=
  ∀ (s : State) (t : Nat), s.blk.Calm →
    let abandoned := fun (c : Commit) (b' : Block) =>
      b'.img.commit = none ∧ b'.img.pend &&& c.kinds = c.kinds ∧ b'.img.fails = s.blk.img.fails + 1 ∧ b'.fld IMG_JRNL_BUSY = 0 ∧
      b'.fld IMG_JRNL_STOPPED = (if 2 ≤ s.blk.img.fails then 1 else 0) ∧ b'.fld IMG_JRNL_FAIL = 1 ∧ s.blk.Raised b' srcFLASH_FAIL 0 ∧
      s.blk.RegsKept b' [IMG_JRNL_BUSY.base]
    (∀ k, k < 4 → (s.blk.kindBytes k).length ≤ (areaOf k).2) ∧
    ({ s.blk with now := max s.blk.now t }.commitMayStart = true → Completes (.journalCommitStart t) s (fun b' =>
      b'.img = { s.blk.img with commit := some { s.blk.makeCommit with opAt := some (max s.blk.now t) }, pend := 0 } ∧
      b'.fld IMG_JRNL_BUSY = 1 ∧ s.blk.RegsKept b' [IMG_JRNL_BUSY.base] ∧
      (∀ k, k < 4 → s.blk.makeCommit.valid.getLsbD k = (s.blk.img.jvalid.getLsbD k || s.blk.img.pend.getLsbD k)))) ∧
    (∀ (c : Commit) (o : FlashOp) (rest : List FlashOp) (a : Nat), s.blk.img.commit = some c → c.ops = o :: rest → c.opAt = some a →
      Completes (.flashOpDone t true) s (fun b' =>
        b'.img = { s.blk.img with commit := some { c with
          ops := rest, opAt := if rest = [] ∨ s.blk.flashMayStart = false then none else some (max s.blk.now t) } } ∧
        s.blk.RegsKept b' []) ∧
      (s.blk.Mild srcFLASH_FAIL → Completes (.flashOpDone t false) s (abandoned c)) ∧
      (s.blk.Mild srcFLASH_FAIL → a + opLimit o ≤ max s.blk.now t → Completes (.flashOpTimeout t) s (abandoned c)) ∧
      (max s.blk.now t < a + opLimit o → Completes (.flashOpTimeout t) s (fun b' => b' = { s.blk with now := max s.blk.now t }))) ∧
    (∀ c : Commit, s.blk.img.commit = some c → c.ops = [] →
      Completes (.journalCommitComplete t true) s (fun b' =>
        b'.img.commit = none ∧ b'.img.fails = 0 ∧ b'.img.recBank = some c.recBank ∧ b'.img.jvalid = c.valid ∧
        b'.fld IMG_JSEQ_SEQ = c.seq % 2 ^ 32 ∧ b'.fld IMG_JRNL_BUSY = 0 ∧ b'.img.pend = s.blk.img.pend ∧
        (∀ k, k < 4 →
          (BitVec.ofNat 4 (b'.fld IMG_JRNL_VALID)).getLsbD k =
            (c.kinds.getLsbD k || (BitVec.ofNat 4 (s.blk.fld IMG_JRNL_VALID)).getLsbD k) ∧
          (BitVec.ofNat 4 (b'.fld IMG_JRNL_BANKS)).getLsbD k =
            (if c.kinds.getLsbD k then c.banks.getLsbD k else (BitVec.ofNat 4 (s.blk.fld IMG_JRNL_BANKS)).getLsbD k)) ∧
        (c.kinds.getLsbD 3 = true → b'.img.wear = [] ∧ b'.img.rc = [] ∧ b'.img.rcHold = false) ∧
        (c.kinds.getLsbD 3 = false → b'.img.wear = s.blk.img.wear)) ∧
      (s.blk.Mild srcFLASH_FAIL → Completes (.journalCommitComplete t false) s (abandoned c)))

/-- The PMBus host's own traffic (R433 to R435): the start list marks the devices that do not answer or are not supported and
sends the others' writes, but for one whose retries fail too, which raises PMB_ERR; a poll reports what a device answers, or has it
retried; a retry reports, or fails again, the third time with PMB_ERR; an alert is reported, and a read of it that fails three times
raises PMB_ERR; and the host's transfer ends with its data or is retried. That a device that does not answer before the start list
raises PMB_ERR, and that the retries of the start list and of an alert are counted within them, are the model's choice (log entry 49).
-/
def Obligations.PmbusTraffic : Prop :=
  ∀ (s : State) (t : Nat), s.blk.Calm → s.blk.img.devs.length ≤ 8 →
    let answered := fun (i : Nat) (a : PmbPollAnswer) (b' : Block) =>
      b'.fld PMB_DEV_STATUS i = a.status % 65536 ∧ b'.fld PMB_READ_VOUT i = a.vout % 65536 ∧ b'.fld PMB_READ_IOUT i = a.iout % 65536 ∧
      b'.fld PMB_DEV_FAILED i = 0 ∧ b'.triesOf i = 0
    (s.blk.pmbRuns = true → s.blk.img.startDue = true → s.blk.Mild srcPMB_ERR → ∀ answers (fails : List Nat),
      Completes (.pmbStartList t answers fails) s (fun b' =>
      let due := ((List.range s.blk.img.start.length).zip s.blk.img.start).filter (fun e =>
        !b'.bit PMB_DEV_FAILED e.2.dev && !b'.bit PMB_DEV_UNSUPPORTED e.2.dev)
      b'.img.startDue = false ∧
      (∀ i, i < s.blk.img.devs.length → (answers.find? (fun a => a.dev = i && a.acks)) = none →
        b'.fld PMB_DEV_FAILED i = 1 ∧ s.blk.Raised b' srcPMB_ERR 0) ∧
      (∀ i a, i < s.blk.img.devs.length → (answers.find? (fun a => a.dev = i && a.acks)) = some a → pmbSupported a = false →
        b'.fld PMB_DEV_UNSUPPORTED i = 1 ∧ s.blk.Raised b' srcPMB_ERR 0) ∧
      b'.img.sent = (due.filter (fun e => decide (fails.getD e.1 0 < 3))).map (·.2) ∧
      ((∃ e, e ∈ due ∧ 3 ≤ fails.getD e.1 0) → s.blk.Raised b' srcPMB_ERR 0))) ∧
    (s.blk.pmbRuns = true → s.blk.img.startDue = false → ∀ answers, Completes (.pmbPoll t answers) s (fun b' =>
      ∀ i, i < s.blk.img.devs.length → { s.blk with now := max s.blk.now t }.polled i = true → s.blk.triesOf i = 0 →
        (∀ a, (answers.find? (fun a => a.dev = i && a.acks)) = some a → answered i a b') ∧
        ((answers.find? (fun a => a.dev = i && a.acks)) = none → b'.triesOf i = 1 ∧
          b'.fld PMB_READ_VOUT i = s.blk.fld PMB_READ_VOUT i))) ∧
    (∀ i (a : PmbPollAnswer), i < s.blk.img.devs.length → 0 < s.blk.triesOf i → s.blk.pmbRuns = true →
      (a.acks = true → Completes (.pmbRetry t i a) s (answered i a)) ∧
      (a.acks = false → s.blk.triesOf i < 2 → Completes (.pmbRetry t i a) s (fun b' =>
        b'.triesOf i = s.blk.triesOf i + 1 ∧ s.blk.RegsKept b' [])) ∧
      (a.acks = false → 2 ≤ s.blk.triesOf i → s.blk.Mild srcPMB_ERR → Completes (.pmbRetry t i a) s (fun b' =>
        b'.triesOf i = 0 ∧ b'.fld PMB_STATUS_ERR = 1 ∧ s.blk.Raised b' srcPMB_ERR 0))) ∧
    (s.blk.pmbRuns = true → s.blk.Milds [srcPMB_ALERT, srcPMB_ERR] → ∀ addr status fails statusFails,
      (fails < 3 → Completes (.pmbAlert t addr status fails statusFails) s (fun b' =>
        b'.fld PMB_STATUS_ALERT = 1 ∧ b'.fld PMB_STATUS_ALERT_ADDR = addr % 128 ∧ s.blk.Raised b' srcPMB_ALERT 0 ∧
        (∀ i, s.blk.pmbIndex (addr % 128) = some i → i < 8 → statusFails < 3 → b'.fld PMB_DEV_STATUS i = status % 65536) ∧
        (3 ≤ statusFails → b'.fld PMB_STATUS_ERR = 1 ∧ s.blk.Raised b' srcPMB_ERR 0) ∧ b'.rgn = s.blk.rgn)) ∧
      (3 ≤ fails → Completes (.pmbAlert t addr status fails statusFails) s (fun b' =>
        b'.fld PMB_STATUS_ERR = 1 ∧ s.blk.Raised b' srcPMB_ERR 0 ∧ s.blk.ReportOnly b' ∧ s.blk.RegsKept b' [PMB_STATUS_ERR.base]))) ∧
    (∀ (ctl : Word) (d data : Nat), s.blk.img.xfer = some (ctl, d) → s.blk.triesOf 8 = 0 →
      Completes (.pmbTransferDone t true data) s (fun b' =>
        b'.img.xfer = none ∧ b'.fld PMB_STATUS_BUSY = 0 ∧
        ((Fld.get PMB_CTL_READ ctl = 1 ∧ (Fld.get PMB_CTL_SIZE ctl = 1 ∨ Fld.get PMB_CTL_SIZE ctl = 2)) →
          b'.fld PMB_DATA_DATA = data % 256 ^ Fld.get PMB_CTL_SIZE ctl) ∧
        (Fld.get PMB_CTL_READ ctl = 0 → b'.fld PMB_DATA_DATA = s.blk.fld PMB_DATA_DATA) ∧
        s.blk.RegsKept b' [PMB_DATA_DATA.base, PMB_STATUS_BUSY.base]) ∧
      Completes (.pmbTransferDone t false data) s (fun b' =>
        b'.triesOf 8 = 1 ∧ b'.img.xfer = some (ctl, d) ∧ s.blk.RegsKept b' []))

/-! The ring (chapter 15). -/

/-- A frame of another member, not one of its last 16, is forwarded, remembered and acted on by its type (R451, R452): CAP, BUDGET,
PACE, TICK_SYNC, FAULT and PROG (R456, R460, R462 to R464, R466); one of a reserved type is only forwarded (R455). A repeated one is
not acted on. -/
def Claims.FramesReceived : Prop :=
  ∀ (s : State) (t : Nat) (f : Frame), s.blk.Calm → s.blk.hoop.bypOpen = true → f.src ≠ s.blk.me → f.src < 64 →
    let now := max s.blk.now t
    let fresh := fun b' : Block => b'.hoop.fwd = some f ∧ (b'.peer f.src).seen = (f.seq :: (s.blk.peer f.src).seen).take 16
    ((s.blk.peer f.src).seen.contains f.seq = false →
      (f.ty = mCap → Completes (.hoopCap t f) s (fun b' => fresh b' ∧
        (b'.peer f.src).capAt = some now ∧ (b'.peer f.src).avg = payload16 f 4 ∧ (b'.peer f.src).limit = payload16 f 6 ∧
        (b'.peer f.src).capped = (f.payload.getD 4 0).getLsbD 0 ∧ b'.fld HOOP_MEMBER_AVG f.src = min (payload16 f 4) 4095 ∧
        s.blk.RegsKept b' [HOOP_MEMBER_HEARD.base + 4 * f.src])) ∧
      (f.ty = mBudget → Completes (.hoopBudget t f) s (fun b' => fresh b' ∧ b'.hoop.budHeard = some now ∧ b'.hoop.acting = false ∧
        (∀ j, j < 6 → f.arg + j < s.blk.fld HOOP_CFG_N → (b'.peer (f.arg + j)).share = payload16 f (4 + 2 * j)) ∧
        (∀ j, j < 6 → f.arg + j = s.blk.me → s.blk.me < s.blk.fld HOOP_CFG_N →
          b'.hoop.budget = some (payload16 f (4 + 2 * j), now) ∧ b'.fld HOOP_SHARE_LAST = min (payload16 f (4 + 2 * j)) 4095))) ∧
      (f.ty = mPace → f.arg = s.blk.fld HOOP_PACE_PGROUP → Completes (.hoopPace t f) s (fun b' => fresh b' ∧
        (b'.peer f.src).rate = payload16 f 4 ∧ (b'.peer f.src).rateAt = some now ∧ s.blk.RegsKept b' [])) ∧
      (f.ty = mPace → f.arg ≠ s.blk.fld HOOP_PACE_PGROUP → Completes (.hoopPace t f) s (fun b' => fresh b' ∧
        (b'.peer f.src).rate = (s.blk.peer f.src).rate ∧ s.blk.RegsKept b' [])) ∧
      (f.ty = mTickSync → Completes (.hoopTickSync t f) s (fun b' => fresh b' ∧
        b'.fld HOOP_SYNC_TICK_OFS = unsigned 16 ((s.blk.tickno : Int) - payload16 f 4) ∧
        b'.fld HOOP_SYNC_CYC_OFS = unsigned 10 (({ s.blk with now := now }.cycleNow : Int) - payload16 f 12) ∧
        s.blk.RegsKept b' [HOOP_SYNC_TICK_OFS.base])) ∧
      (f.ty = mFault → s.blk.Mild srcHOOP_NOTICE → Completes (.hoopFault t f) s (fun b' => fresh b' ∧
        b'.fld HOOP_NOTICE_MEMBER = f.src ∧ b'.fld HOOP_NOTICE_SRC = (f.payload.getD 0 0).toNat % 128 ∧
        b'.fld HOOP_NOTICE_INSTANCE = payload16 f 6 % 2048 ∧ b'.fld HOOP_STATUS_NOTICE = 1 ∧ s.blk.Raised b' srcHOOP_NOTICE 0)) ∧
      (f.ty = mProg → Completes (.hoopProg t f) s (fun b' => fresh b' ∧
        (b'.peer f.src).word0 = payload16 f 4 ∧ (b'.peer f.src).word1 = payload16 f 6 ∧ s.blk.RegsKept b' [])) ∧
      ((f.ty = 0 ∨ 6 < f.ty) → Completes (.hoopReservedType t f) s (fun b' => fresh b' ∧
        (∀ i, i ≠ f.src → b'.peer i = s.blk.peer i) ∧ s.blk.RegsKept b' []))) ∧
    ((s.blk.peer f.src).seen.contains f.seq = true → f.ty = mProg → Completes (.hoopProg t f) s (fun b' =>
      b'.hoop.fwd = some f ∧ b'.peer f.src = s.blk.peer f.src ∧ s.blk.RegsKept b' []))

/-- The frames of a transmit buffer but for their start, which gives them their SEQ, and a TICK_SYNC its payload (R450, R463). -/
def txKept (xs ys : List TxFrame) : Prop :=
  let kept := fun x : TxFrame => (x.frame.ty, if x.frame.ty = mTickSync then [] else x.frame.payload, x.resends, x.urgent)
  xs.map kept = ys.map kept

/-- The symbols of a frame with a code error or a misplaced control symbol, or whose CRC-32 is wrong, are discarded, an error of their
lane; one that fails its CRC is counted on the lane, which the fourth in a row fails (R411, R449, R450); an own frame that returns
leaves the buffer, and the member is UP (R452, R453); one the buffer does not hold shows a duplicated ID, with HOOP_DOWN, and the member
leaves (R452). -/
def Claims.OwnFrames : Prop :=
  ∀ (s : State) (t : Nat) (f : Frame), s.blk.Calm →
    (∀ lane syms, lane < 2 → frameBody syms = none → Completes (.hoopBadFrame t lane syms) s (fun b' =>
      b'.errAt lane = max s.blk.now t ∧ b'.errAt (1 - lane) = s.blk.errAt (1 - lane) ∧
      b' = { s.blk with now := max s.blk.now t,
                        hoop := { s.blk.hoop with errAt0 := b'.hoop.errAt0, errAt1 := b'.hoop.errAt1 } })) ∧
    (∀ lane syms body, lane < 2 → frameBody syms = some body →
      (body.drop 16 = leBytes 4 (crc32 (body.take 16)).toNat → Completes (.hoopBadFrame t lane syms) s (fun b' =>
        b' = { s.blk with now := max s.blk.now t })) ∧
      (body.drop 16 ≠ leBytes 4 (crc32 (body.take 16)).toNat →
        (s.blk.badRun lane < 3 ∨ s.blk.bit (laneOk lane) = false → Completes (.hoopBadFrame t lane syms) s (fun b' =>
          b' = { s.blk with now := max s.blk.now t, hoop := b'.hoop } ∧ b'.badRun lane = s.blk.badRun lane + 1 ∧
          b'.errAt lane = max s.blk.now t ∧
          b'.badRun (1 - lane) = s.blk.badRun (1 - lane) ∧ b'.hoop.tx = s.blk.hoop.tx ∧ b'.hoop.peers = s.blk.hoop.peers)) ∧
        (3 ≤ s.blk.badRun lane → s.blk.bit (laneOk lane) = true → s.blk.Mild srcHOOP_LANE →
          Completes (.hoopBadFrame t lane syms) s (fun b' =>
            b'.bit (laneOk lane) = false ∧ b'.fld HOOP_STATUS_LANE_FAIL = 1 ∧ s.blk.Raised b' srcHOOP_LANE 0 ∧
            b'.errAt lane = max s.blk.now t ∧
            (s.blk.bit (laneOk (1 - lane)) = true → b'.fld HOOP_STATUS_ACT_LANE = 1 - lane))))) ∧
    (s.blk.hoop.bypOpen = true → f.src = s.blk.me →
      (s.blk.hoop.tx.any (fun x => x.started && x.frame.seq = f.seq) = true → Completes (.hoopOwnFrameReturn t f) s (fun b' =>
        txKept (s.blk.hoop.tx.filter (fun x => !(x.started && x.frame.seq = f.seq))) b'.hoop.tx ∧
        b'.hoop.backAt = some (max s.blk.now t) ∧ s.blk.RegsKept b' [HOOP_RATE_SENT.base])) ∧
      (s.blk.hoop.tx.any (fun x => x.started && x.frame.seq = f.seq) = false → s.blk.Mild srcHOOP_DOWN →
        Completes (.hoopOwnFrameReturn t f) s (fun b' =>
          b'.fld HOOP_STATUS_DUP_ID = 1 ∧ b'.fld HOOP_STATUS_DOWN = 1 ∧ s.blk.Raised b' srcHOOP_DOWN 0 ∧ b'.hoop.bypOpen = false ∧
          b'.hoop.tx = s.blk.hoop.tx ∧ s.blk.RegsKept b' [HOOP_STATUS_DUP_ID.base])))

/-- The frames of the ring as they come in. -/
def Obligations.RingReceives : Prop := Claims.FramesReceived ∧ Claims.OwnFrames

/-- A frame not back in 2 turns is sent again, three times, then dropped; TICK_SYNC is dropped at once; one that left lets those that
wait start (R452, R455). The oldest frame that waits starts when its rate limit allows, with the next SEQ, and a TICK_SYNC with the
TICKNO and engine cycle of its start (R463); while no limit allows, nothing starts (R450, R455). During a block warm reset the last PACE
is repeated (R467). -/
def Claims.RingBuffer : Prop :=
  ∀ (s : State) (t : Nat) (x : TxFrame), s.blk.Calm →
    let tx := s.blk.hoop.tx
    let b := { s.blk with now := max s.blk.now t }
    (tx.find? (fun y => y.started && y.frame.seq = x.frame.seq) = some x →
      (x.sentAt + 2 * s.blk.turn ≤ max s.blk.now t →
        (x.frame.ty ≠ mTickSync → x.resends < 3 → Completes (.hoopResend t x.frame.seq) s (fun b' =>
          b'.hoop = { s.blk.hoop with
            wire := slot x.frame,
            tx := tx.map (fun y => if y = x then { y with resends := y.resends + 1, sentAt := max s.blk.now t } else y) } ∧
          b'.fld HOOP_STAT_RETRY = (s.blk.fld HOOP_STAT_RETRY + 1) % 65536 ∧ s.blk.RegsKept b' [HOOP_STAT_RETRY.base])) ∧
        (x.frame.ty ≠ mTickSync → 3 ≤ x.resends → Completes (.hoopResend t x.frame.seq) s (fun b' =>
          txKept (tx.filter (· ≠ x)) b'.hoop.tx ∧ b'.fld HOOP_STAT_DROP = (s.blk.fld HOOP_STAT_DROP + 1) % 256)) ∧
        (x.frame.ty = mTickSync → Completes (.hoopResend t x.frame.seq) s (fun b' =>
          txKept (tx.filter (· ≠ x)) b'.hoop.tx ∧ s.blk.RegsKept b' [HOOP_RATE_SENT.base]))) ∧
      (max s.blk.now t < x.sentAt + 2 * s.blk.turn → Completes (.hoopResend t x.frame.seq) s (fun b' => b' = b))) ∧
    (∀ pre post : List TxFrame, tx = pre ++ x :: post → pre.length < 16 → (∀ y ∈ pre, y.started = true) → x.started = false →
      b.mayStart x = true → b.paceRepeats = false → Completes (.hoopRateLimitExpiry t) s (fun b' =>
        let payload := if x.frame.ty = mTickSync then
            payloadOf ((List.range 8).map (fun i => BitVec.ofNat 8 (s.blk.tickno / 256 ^ i)) ++ bytes16 b.cycleNow) else x.frame.payload
        b'.hoop.tx[pre.length]? = some { x with
          started := true, sentAt := b.now, frame := { x.frame with seq := s.blk.hoop.seq, payload := payload } } ∧
        txKept tx b'.hoop.tx ∧ s.blk.RegsKept b' [HOOP_RATE_SENT.base])) ∧
    ((∀ y ∈ tx, y.started = true ∨ b.mayStart y = false) → b.paceRepeats = false →
      Completes (.hoopRateLimitExpiry t) s (fun b' => b' = b)) ∧
    (b.paceRepeats = true → s.blk.hoop.bypOpen = true → tx.length < 16 → Completes (.hoopRateLimitExpiry t) s (fun b' =>
      b'.hoop.tx.length = tx.length + 1 ∧
      (b'.hoop.tx[tx.length]?).map (fun y => (y.frame.ty, y.frame.payload)) = some (mPace, payloadOf (bytes16 (s.blk.fld HOOP_RATE_SENT)))))

/-- The lanes: a failure moves the receiver to the other lane if that is OK, with HOOP_LANE; a lane that is OK again, 1 ms after it last
showed an error, takes over from one that is not (R449). -/
def Claims.RingLanes : Prop :=
  ∀ (s : State) (t lane : Nat), lane < 2 → s.blk.Calm → s.blk.Mild srcHOOP_LANE →
    let status := HOOP_STATUS_STATE.base
    (s.blk.fld HOOP_STATUS_ACT_LANE = lane → s.blk.bit (laneOk (1 - lane)) = true → Completes (.hoopLaneFail t lane) s (fun b' =>
      b'.bit (laneOk lane) = false ∧ b'.fld HOOP_STATUS_ACT_LANE = 1 - lane ∧ b'.fld HOOP_STATUS_LANE_FAIL = 1 ∧
      b'.fld HOOP_STAT_LANE_SW = (s.blk.fld HOOP_STAT_LANE_SW + 1) % 256 ∧ s.blk.Raised b' srcHOOP_LANE 0 ∧
      s.blk.RegsKept b' [status, HOOP_STAT_RETRY.base])) ∧
    (s.blk.fld HOOP_STATUS_ACT_LANE = 1 - lane → s.blk.bit (laneOk (1 - lane)) = true → Completes (.hoopLaneFail t lane) s (fun b' =>
      b'.bit (laneOk lane) = false ∧ b'.fld HOOP_STATUS_ACT_LANE = 1 - lane ∧ s.blk.RegsKept b' [status])) ∧
    (s.blk.errAt lane + 1000000 ≤ max s.blk.now t →
      (s.blk.fld HOOP_STATUS_ACT_LANE = 1 - lane → s.blk.bit (laneOk (1 - lane)) = false → Completes (.hoopLaneOk t lane) s (fun b' =>
        b'.bit (laneOk lane) = true ∧ b'.fld HOOP_STATUS_ACT_LANE = lane ∧
        b'.fld HOOP_STAT_LANE_SW = (s.blk.fld HOOP_STAT_LANE_SW + 1) % 256 ∧ s.blk.TimeRegsOnly b')) ∧
      ((s.blk.fld HOOP_STATUS_ACT_LANE = lane ∨ s.blk.bit (laneOk (1 - lane)) = true) → Completes (.hoopLaneOk t lane) s (fun b' =>
        b'.bit (laneOk lane) = true ∧ b'.fld HOOP_STATUS_ACT_LANE = s.blk.fld HOOP_STATUS_ACT_LANE ∧ s.blk.TimeRegsOnly b' ∧
        s.blk.RegsKept b' [status]))) ∧
    (max s.blk.now t < s.blk.errAt lane + 1000000 → Completes (.hoopLaneOk t lane) s (fun b' =>
      b' = { s.blk with now := max s.blk.now t }))

/-- Own frames enter the transmit buffer with room, in the ring: a CAP at its turn and at a write of LIMIT (R456), which in a block warm
reset carries the values of the last one (R467), the allocator's TICK_SYNC (R463), and the leaving notice, after which the pin falls
(R454, R464). The writes that ask for them store their fields, as does that of HOOP_ALLOC (R457, R469). -/
def Claims.RingSending : Prop :=
  ∀ (s : State) (t : Nat), s.blk.Calm →
    let k := s.blk.hoop.tx.length
    let b := { s.blk with now := max s.blk.now t }
    let put := fun (ty : Nat) (bytes : List Byte) (urgent : Bool) (b' : Block) =>
      b'.hoop.tx.length = k + 1 ∧
      (b'.hoop.tx[k]?).map (fun x => (x.frame.ty, x.frame.src, x.frame.payload, x.urgent)) = some (ty, s.blk.me, payloadOf bytes, urgent)
    let cap := fun (limit : Nat) => bytes16 ((roundDiv (s.blk.fld PWR_CHIP_AVG_FAST) 16).toNat) ++ bytes16 limit
    (s.blk.hoop.bypOpen = true → k < 16 →
      (s.blk.restarting = false → Completes (.hoopCapSend t) s (fun b' =>
        put mCap (cap (s.blk.fld PWR_CAP_SLOW_LIMIT) ++ [if b.capped then 1 else 0]) false b' ∧
        s.blk.RegsKept b' [HOOP_RATE_SENT.base])) ∧
      (∀ last, s.blk.restarting = true → s.blk.hoop.capLast = some last → Completes (.hoopCapSend t) s (fun b' =>
        put mCap last false b' ∧ s.blk.RegsKept b' [HOOP_RATE_SENT.base])) ∧
      (s.blk.hoop.acting = true → Completes (.hoopTickSyncSend t) s (fun b' =>
        b'.hoop.tx.length = k + 1 ∧ ∃ x, b'.hoop.tx[k]? = some x ∧ x.frame.ty = mTickSync ∧ x.frame.src = s.blk.me ∧
          (x.started = true → x.frame.payload =
            payloadOf ((List.range 8).map (fun i => BitVec.ofNat 8 (s.blk.tickno / 256 ^ i)) ++ bytes16 b.cycleNow)) ∧
          ((∀ y, y ∈ s.blk.hoop.tx → y.frame.ty ≠ mTickSync) → b.sentWithin mTickSync 1 = 0 → x.started = true))) ∧
      (∀ data : Word, s.blk.PlainWrite HOOP_CTL_LEAVE.base data → data.getLsbD 0 = true → Completes (.hoopLeave t data) s (fun b' =>
        put mFault ([0x7F, 0] ++ bytes16 0) false b' ∧ b'.hoop.bypOpen = false ∧ b'.hoop.fellAt = some (max s.blk.now t) ∧
        b'.fld HOOP_CTL_LEAVE = 1)) ∧
      (∀ data : Word, s.blk.PlainWrite PWR_CAP_SLOW_LIMIT.base data → Completes (.slowCapLimitWrite t data) s (fun b' =>
        b'.hoop.tx.length = k + 1 ∧ ((b'.hoop.tx[k]?).map (fun x => (x.frame.ty, x.frame.src, x.urgent)) = some (mCap, s.blk.me, true)) ∧
        b'.fld PWR_CAP_SLOW_LIMIT = Fld.get PWR_CAP_SLOW_LIMIT data ∧ b'.fld PWR_CAP_SLOW_WIN = Fld.get PWR_CAP_SLOW_WIN data))) ∧
    (s.blk.hoop.bypOpen = false → ∀ data : Word, s.blk.PlainWrite PWR_CAP_SLOW_LIMIT.base data →
      Completes (.slowCapLimitWrite t data) s (fun b' =>
        b'.hoop = s.blk.hoop ∧ b'.fld PWR_CAP_SLOW_LIMIT = Fld.get PWR_CAP_SLOW_LIMIT data ∧
        b'.fld PWR_CAP_SLOW_WIN = Fld.get PWR_CAP_SLOW_WIN data ∧ s.blk.RegsKept b' [PWR_CAP_SLOW_LIMIT.base])) ∧
    (∀ data : Word, s.blk.PlainWrite HOOP_CTL_LEAVE.base data → data.getLsbD 0 = false → Completes (.hoopLeave t data) s (fun b' =>
      b'.fld HOOP_CTL_LEAVE = 0 ∧ s.blk.PortOnly b' ∧ s.blk.RegsKept b' [HOOP_CTL_LEAVE.base])) ∧
    (∀ data : Word, s.blk.PlainWrite HOOP_ALLOC_ENT.base data → Completes (.hoopEntWrite data) s (fun b' =>
      b'.fld HOOP_ALLOC_ENT = Fld.get HOOP_ALLOC_ENT data ∧ s.blk.PortOnly b' ∧ s.blk.RegsKept b' [HOOP_ALLOC_ENT.base]))

/-- The transmit buffer, the lanes, and what the member sends. -/
def Obligations.RingTransmits : Prop := Claims.RingBuffer ∧ Claims.RingLanes ∧ Claims.RingSending

/-- The allocator's turn (R457, R458): a share falls to its target at once; those that are to rise share, in ascending order of ID, the
headroom that the entitlement leaves over what is counted of every member; and the BUDGET frames go out with the shares. That its own
share is in force at its turn is the model's choice (log entry 50: the allocator hears itself). It acts after 16 turns without a BUDGET,
the backup after 32, from the floors (R459). A missing BUDGET is HOOP_HOLD after a turn (R460), a ring that is not UP HOOP_DOWN after 3
(R453). When every condition holds and 10 ms have passed since the pin last fell, idles go out on both lanes, and after 100 µs of them
the bypass opens (R454). -/
def Obligations.RingAllocation : Prop :=
  ∀ (s : State) (t : Nat), s.blk.Calm →
    let b := { s.blk with now := max s.blk.now t }
    let ids := List.range (s.blk.fld HOOP_CFG_N)
    (s.blk.hoop.acting = true → s.blk.hoop.bypOpen = true → (∀ a, s.blk.hoop.allocAt = some a → a + s.blk.turn ≤ max s.blk.now t) →
      Completes (.hoopAllocation t) s (fun b' =>
        let n := s.blk.fld HOOP_CFG_N
        let counted := fun i => if b.target ids i ≤ (s.blk.peer i).share then max (b.counted i) (b.target ids i) else b.counted i
        let headroom := b.entitlement ids - (ids.map counted).sum
        let asked := fun i => ((List.range i).map (fun j => b.target ids j - (s.blk.peer j).share)).sum
        (∀ i, i < n →
          (b.target ids i ≤ (s.blk.peer i).share → (b'.peer i).share = b.target ids i) ∧
          ((s.blk.peer i).share < b.target ids i →
            (b'.peer i).share = (s.blk.peer i).share + (min headroom (asked (i + 1)) - min headroom (asked i)))) ∧
        (s.blk.hoop.tx.length + (n + 5) / 6 ≤ 16 → ∀ j, 6 * j < n →
          (b'.hoop.tx[s.blk.hoop.tx.length + j]?).map (fun x => (x.frame.ty, x.frame.src, x.frame.arg, x.frame.payload)) =
            some (mBudget, s.blk.me, 6 * j, payloadOf ((List.range 6).flatMap (fun m =>
              bytes16 (if 6 * j + m < n then (b'.peer (6 * j + m)).share else 0))))) ∧
        b'.hoop.allocAt = some (max s.blk.now t) ∧ b'.hoop.budget = some ((b'.peer s.blk.me).share, max s.blk.now t))) ∧
    (s.blk.hoop.cfgOk = true → s.blk.hoop.bypOpen = true → s.blk.hoop.acting = false →
      (s.blk.me = s.blk.fld HOOP_CFG_ALLOC_ID ∨ (s.blk.bit HOOP_CFG_BACKUP_VALID = true ∧ s.blk.me = s.blk.fld HOOP_CFG_BACKUP_ID)) →
      let since := max s.blk.hoop.openAt (s.blk.hoop.budHeard.getD 0)
      let turns := if s.blk.me = s.blk.fld HOOP_CFG_ALLOC_ID then 16 else 32
      (since + turns * s.blk.turn ≤ max s.blk.now t → Completes (.hoopAllocatorTakeover t) s (fun b' =>
        b'.hoop.acting = true ∧ b'.hoop.allocAt = none ∧ b'.fld HOOP_STATUS_ROLE = 1 ∧
        (∀ i, i < s.blk.fld HOOP_CFG_N → (b'.peer i).share = s.blk.ringFloor i) ∧ s.blk.RegsKept b' [HOOP_STATUS_STATE.base])) ∧
      (max s.blk.now t < since + turns * s.blk.turn → Completes (.hoopAllocatorTakeover t) s (fun b' => b' = b))) ∧
    (∀ l a, s.blk.hoop.budget = some (l, a) → s.blk.Mild srcHOOP_HOLD →
      (a + s.blk.turn < max s.blk.now t → Completes (.hoopBudgetMissing t) s (fun b' =>
        b'.fld HOOP_STATUS_HOLD = 1 ∧ s.blk.Raised b' srcHOOP_HOLD 0 ∧ s.blk.ReportOnly b' ∧ s.blk.RegsKept b' [HOOP_STATUS_STATE.base])) ∧
      (max s.blk.now t ≤ a + s.blk.turn → Completes (.hoopBudgetMissing t) s (fun b' => b' = b))) ∧
    (s.blk.hoop.bypOpen = true → s.blk.hoop.backAt = none → s.blk.Mild srcHOOP_DOWN →
      (s.blk.hoop.openAt + 3 * s.blk.turn ≤ max s.blk.now t → Completes (.hoopDownTimeout t) s (fun b' =>
        b'.fld HOOP_STATUS_DOWN = 1 ∧ s.blk.Raised b' srcHOOP_DOWN 0 ∧ s.blk.ReportOnly b' ∧ s.blk.RegsKept b' [HOOP_STATUS_STATE.base])) ∧
      (max s.blk.now t < s.blk.hoop.openAt + 3 * s.blk.turn → Completes (.hoopDownTimeout t) s (fun b' => b' = b))) ∧
    (s.blk.mayJoin = true → s.blk.hoop.bypOpen = false →
      ((∀ a, s.blk.hoop.fellAt = some a → a + 10000000 ≤ max s.blk.now t) →
        (s.blk.hoop.idleAt = none → Completes (.hoopBypassOpen t) s (fun b' =>
          b' = { b with hoop := { s.blk.hoop with idleAt := some (max s.blk.now t), wire := symIdle } })) ∧
        (∀ a, s.blk.hoop.idleAt = some a → a + 100000 ≤ max s.blk.now t → Completes (.hoopBypassOpen t) s (fun b' =>
          b' = { b with hoop := { s.blk.hoop with bypOpen := true, openAt := max s.blk.now t, idleAt := none } })) ∧
        (∀ a, s.blk.hoop.idleAt = some a → max s.blk.now t < a + 100000 → Completes (.hoopBypassOpen t) s (fun b' => b' = b))) ∧
      (∀ a, s.blk.hoop.fellAt = some a → max s.blk.now t < a + 10000000 → Completes (.hoopBypassOpen t) s (fun b' => b' = b)))

/-! Trace memory, the tick, INIT and the scrubber (chapters 6, 13 and 16). -/

/-- A whole record goes out when the host is ready and its ring has room, each word to its address of the host ring (R485). A trigger
whose POST ticks have passed stops the recording (R478), with an END record there (the model's choice: log entry 51). The STATE record
copied arms the recorder (R486). -/
def Claims.TraceRecords : Prop :=
  ∀ (s : State) (t : Nat), s.blk.Calm →
    (∀ (r : TrcRec) (rest : List TrcRec), s.blk.trc.mem = r :: rest → s.blk.bit TRC_CTL_EXPORT = true → s.blk.img.rcHold = false →
      let w := s.blk.fld TRC_EXP_WPTR_WPTR
      let words := 2 ^ (clampN 16 36 (s.blk.fld TRC_EXP_BASE_HI_SIZE_LOG2) - 4)
      let base := s.blk.fld TRC_EXP_BASE_LO_BASE_MID * 4096 + s.blk.fld TRC_EXP_BASE_HI_BASE_HI * 2 ^ 32
      let held := (w + 2 ^ 32 - s.blk.fld TRC_EXP_RPTR_RPTR) % 2 ^ 32
      (held + r.len < words → Completes (.traceRecordExport true) s (fun b' =>
        b'.trc.sent = (List.range r.len).map (fun i => (base + 16 * ((w + i) % words), (r.bytes.drop (16 * i)).take 16)) ∧
        b'.trc.mem = rest ∧ b'.fld TRC_EXP_WPTR_WPTR = (w + r.len) % 2 ^ 32 ∧ b'.eng = s.blk.eng ∧
        s.blk.RegsKept b' [TRC_EXP_WPTR_WPTR.base, TRC_STATUS_FILL.base])) ∧
      (words ≤ held + r.len → Completes (.traceRecordExport true) s (fun b' => b' = s.blk)) ∧
      Completes (.traceRecordExport false) s (fun b' => b' = s.blk)) ∧
    (s.blk.trc.trigLeft = some 0 → s.blk.Mild srcTRC_LOSS → Completes (.traceTriggerStop t) s (fun b' =>
      b'.fld TRC_STATUS_TRIGGERED = 1 ∧ b'.fld TRC_STATUS_RECORDING = 0 ∧ b'.fld TRC_STATUS_ARMED = 0 ∧
      b'.trc.mem.getLast?.map (fun r => (r.kind, r.tickLo)) = some (kEnd, s.blk.tickno % 2 ^ 32) ∧ b'.trc.trigLeft = none)) ∧
    (s.blk.trc.trigLeft ≠ some 0 → Completes (.traceTriggerStop t) s (fun b' => b' = { s.blk with now := max s.blk.now t })) ∧
    (s.blk.trc.copying = true → Completes .stateRecordCopyDone s (fun b' =>
      b' = { s.blk with regs := b'.regs, trc := { s.blk.trc with mem := [s.blk.stateRecord], copying := false } } ∧
      b'.fld TRC_STATUS_ARMED = 1 ∧ b'.fld TRC_STATUS_REPLAYABLE = 0 ∧ s.blk.RegsKept b' [TRC_STATUS_FILL.base]))

/-- The replayed tick that ends differs from its record: it has not completed cleanly, or has another signature. A tick recorded as
aborted has no signature to compare (the model's reading: log entry 52). -/
def replayDiffers (b : Block) (r : TrcRec) : Prop :=
  r.flags % 2 = 0 ∧
    (b.eng.twaitAt = none ∨ b.eng.ueMark = true ∨ b.eng.mismatch = true ∨ b.eng.signature.toNat ≠ r.sig)

/-- A replay's next tick runs on its recorded rows, its outputs going to the shadow. As a replayed tick ends, the last one or not, its
signature is compared: a difference counts in MISMATCH, and FIRST keeps the TICKNO of the first. After the last recorded tick the replay
is done: DONE is set and a block warm reset starts, which counts toward no escalation (R488); where none may start, the replay ends
without one (the model's reading: log entry 52). -/
def Claims.Replay : Prop :=
  ∀ (s : State) (t : Nat), s.blk.Calm → s.blk.bit TRC_REPLAY_BUSY = true → s.blk.trc.spoiled = false →
    (s.blk.trc.cur = none → ∀ (r : TrcRec) (rest : List TrcRec), s.blk.trc.rest = r :: rest → (r.kind = kTick ∨ r.kind = kKey) →
      Completes (.replayTick t) s (fun b' =>
        b'.tickno = (s.blk.tickno + 1) % 2 ^ 64 ∧ b'.trc = { s.blk.trc with rest := rest, cur := some r, rpRows := r.rows } ∧
        b'.eng.run = .tick ∧ b'.eng.pc = s.blk.eng.tickEntry ∧ b'.eng.blk = [] ∧ b'.eng.acc = [] ∧
        b'.eng.outBuf = s.blk.trc.shadow ∧ b'.eng.outCom = s.blk.eng.outCom ∧
        s.blk.RegsKept b' [ENG_TICKNO_LO_VAL.base, ENG_TICKNO_HI_VAL.base])) ∧
    (∀ r : TrcRec, s.blk.trc.cur = some r →
      (replayDiffers s.blk r → Completes (.replayTick t) s (fun b' =>
        b'.fld TRC_REPLAY_MISMATCH = min 4095 (s.blk.fld TRC_REPLAY_MISMATCH + 1) ∧
        (s.blk.fld TRC_REPLAY_MISMATCH = 0 → b'.fld TRC_REPLAY_FIRST = s.blk.tickno % 65536) ∧
        (s.blk.fld TRC_REPLAY_MISMATCH ≠ 0 → b'.fld TRC_REPLAY_FIRST = s.blk.fld TRC_REPLAY_FIRST))) ∧
      (¬ replayDiffers s.blk r → Completes (.replayTick t) s (fun b' =>
        b'.fld TRC_REPLAY_MISMATCH = s.blk.fld TRC_REPLAY_MISMATCH ∧ b'.fld TRC_REPLAY_FIRST = s.blk.fld TRC_REPLAY_FIRST)) ∧
      (∀ (x : TrcRec) (rest : List TrcRec), s.blk.trc.rest = x :: rest → (x.kind = kTick ∨ x.kind = kKey) →
        Completes (.replayTick t) s (fun b' =>
          b'.tickno = (s.blk.tickno + 1) % 2 ^ 64 ∧ b'.trc.cur = some x ∧ b'.trc.rest = rest ∧ b'.trc.rpRows = x.rows ∧
          b'.eng.run = .tick ∧ b'.eng.pc = s.blk.eng.tickEntry ∧ b'.eng.outBuf = b'.trc.shadow ∧
          b'.eng.outCom = s.blk.eng.outCom ∧ (r.flags % 2 = 1 → b'.trc.shadow = s.blk.trc.shadow) ∧
          (r.flags % 2 = 0 → ¬ replayDiffers s.blk r → b'.trc.shadow = s.blk.eng.outBuf)))) ∧
    ((s.blk.trc.rest = [] ∨ ∃ (x : TrcRec) (rest : List TrcRec), s.blk.trc.rest = x :: rest ∧ x.kind ≠ kTick ∧ x.kind ≠ kKey) →
      (s.blk.mayRestart = true → Completes (.replayTick t) s (fun b' =>
        b'.fld TRC_REPLAY_BUSY = 0 ∧ b'.fld TRC_REPLAY_DONE = 1 ∧ b'.flt.step = 1 ∧ b'.flt.startedAt = max s.blk.now t ∧
        b'.flt.resets = s.blk.flt.resets ∧ b'.fld ENG_STATUS_STATE = eStopped ∧ b'.eng.run = .none ∧
        b'.eng.outCom = s.blk.eng.outCom)) ∧
      (s.blk.mayRestart = false → Completes (.replayTick t) s (fun b' =>
        b'.fld TRC_REPLAY_BUSY = 0 ∧ b'.fld TRC_REPLAY_DONE = 1 ∧ b'.flt = s.blk.flt ∧ b'.eng.run = .none ∧
        b'.eng.outCom = s.blk.eng.outCom ∧ s.blk.RegsKept b' [TRC_REPLAY_BUSY.base])))

/-- Trace memory: its records, and the on-chip replay. -/
def Obligations.TraceMemory : Prop := Claims.TraceRecords ∧ Claims.Replay

/-- A halted engine resumes at the first boundary with HALT 0, on whose snapshot TICK runs, and stays halted with it 1 (R197). -/
def Claims.Resume : Prop :=
  ∀ (s : State) (t : Nat) (a4 : Bool), s.blk.Calm → s.blk.fld ENG_STATUS_STATE = eHalted →
    (s.blk.bit ENG_CTL_HALT = false → s.blk.bit TRC_REPLAY_BUSY = false → s.blk.Milds [srcSENSE_CRACK, srcCAPACITY, srcTRC_LOSS] →
      Completes (.tickBoundary t a4) s (fun b' => s.blk.Ticked b' ∧ b'.eng.outCom = s.blk.eng.outCom)) ∧
    (s.blk.bit ENG_CTL_HALT = true → Completes (.tickBoundary t a4) s (fun b' => b' = { s.blk with now := max s.blk.now t }))

/-- A tick whose TWAIT has not issued by its last cycle is aborted: nothing of it is committed, the miss is flagged and counted
(R22, R188, R189). With HALT the engine then halts; while the clock stays up the next tick starts (R186, R197). -/
def Claims.MissedTick : Prop :=
  ∀ (s : State) (t : Nat) (a4 : Bool), s.blk.Calm → s.blk.fld ENG_STATUS_STATE = eRunning →
    s.blk.tickLate = true → s.blk.tickSpoiled = false →
    s.blk.Milds [srcENG_DEADLINE, srcDET_BROKEN, srcENG_STUCK, srcSENSE_CRACK, srcTRC_LOSS, srcCAPACITY] →
    let dropped := fun b' : Block =>
      b'.eng.outCom = s.blk.eng.outCom ∧ b'.eng.sm = s.blk.eng.sm ∧ b'.eng.smPend = [] ∧ b'.fld ENG_DEADLINE_MISS_MISS = 1 ∧
      b'.fld ENG_DEADLINE_MISS_COUNT = (s.blk.fld ENG_DEADLINE_MISS_COUNT + 1) % 65536 ∧ b'.fld ENG_CYCLES_LAST = 0x3FF ∧
      s.blk.Raised b' srcENG_DEADLINE 0
    (s.blk.bit ENG_CTL_HALT = true → Completes (.tickBoundary t a4) s (fun b' => dropped b' ∧ b'.fld ENG_STATUS_STATE = eHalted)) ∧
    (s.blk.bit ENG_CTL_HALT = false → s.blk.Awake → Completes (.tickBoundary t a4) s (fun b' => dropped b' ∧ s.blk.Ticked b'))

/-- A tick that completes at its boundary, with no class S source in the way and no replay spoiled by a host error before it: the
conditions of the claims on what its commit does. -/
def commits (b : Block) : Prop :=
  b.Calm ∧ b.fld ENG_STATUS_STATE = eRunning ∧ b.tickAborts = false ∧ b.trc.spoiled = false ∧
    b.Milds [srcENG_PROG_EVENT, srcSENSE_FAIL, srcWEAR_RON, srcWEAR_SENSE, srcPOOL_EMPTY, srcSENSE_CRACK, srcTRC_LOSS, srcCAPACITY]

/-- A completed tick commits its outputs and its persistent rows (R22, R172, R188), and the output stage applies them: in RUN,
with nothing held, ISSUE_LIMIT of each region within 0..255 (R182). The head of the send queue moves into the transmit buffer as the
PROG rate and the buffer allow, and what remains stays (R465). -/
def Claims.CommittedTick : Prop :=
  ∀ (s : State) (t : Nat) (a4 : Bool), commits s.blk → s.blk.bit ENG_CTL_HALT = true → s.blk.eng.smPend.wf (fun _ => none) = true →
    let q := s.blk.eng.sendQ ++ s.blk.eng.sends
    let sends := ({ s.blk with now := max s.blk.now t, eng := { s.blk.eng with sendQ := q } } : Block).maySend
    Completes (.tickBoundary t a4) s (fun b' =>
      b'.eng.outCom = s.blk.eng.outBuf ∧ b'.eng.smPend = [] ∧ b'.fld ENG_STATUS_STATE = eHalted ∧ b'.tickno = s.blk.tickno ∧
      (∀ q r, q < 4 → r < 256 →
        b'.eng.memRow 1 q r = (s.blk.eng.smPend.get (fun _ => none) (q * 256 + r)).getD (s.blk.eng.memRow 1 q r)) ∧
      (∀ n, n < 256 → s.blk.st n = sRun → s.blk.thm.stopStep = 0 → s.blk.clk.forcing = false → s.blk.clk.issueHold = 0 →
        (b'.R n).issue = outIn 0 255 (signed 16 (s.blk.eng.outBuf.get (fun _ => 0) (outKey 3 0 n)))) ∧
      (sends = false → b'.eng.sendQ = q) ∧
      (sends = true → ∀ w0 w1 rest, q = (w0, w1) :: rest → b'.eng.sendQ = rest ∧
        ∃ x ∈ b'.hoop.tx, x.frame.ty = mProg ∧ x.frame.src = s.blk.me ∧ x.frame.payload = payloadOf (bytes16 w0 ++ bytes16 w1)))

/-- The output stage of a region at a commit: TARGET within 800..2100 (R182); in RUN FLOOR at most ISSUE_LIMIT (R36), and F_PERMIT as
written, raised only for a raise that the tick's snapshot found settled and quiet, and to no more than the F_REQ in it (R41, R122); in
stage L1 of a descent F_PERMIT only falls (R44), and ISSUE_LIMIT goes to 0 at once, or by the fall slope when forced (Table 5-3); the
telemetry as written, with the onsets of a conflict counted (R238, R259, R260). -/
def Claims.RegionOutputs : Prop :=
  ∀ (s : State) (t : Nat) (a4 : Bool), commits s.blk → s.blk.bit ENG_CTL_HALT = true →
    let i16 := fun f r n => signed 16 (s.blk.eng.outBuf.get (fun _ => 0) (outKey f r n))
    Completes (.tickBoundary t a4) s (fun b' => ∀ n, n < 256 →
      let cur := s.blk.fld REG_FIDX_PERMIT n
      let asked := if s.blk.eng.wrote.contains 4 then outIn 0 63 (i16 4 0 n) else cur
      let floor := outIn 0 255 (i16 3 1 n)
      let w := fun r => unsigned 16 (i16 5 r n)
      b'.fld REG_VSET_TARGET n = outIn 800 2100 (i16 0 0 n) ∧
      (s.blk.thm.stopStep = 0 → s.blk.clk.forcing = false → s.blk.clk.issueHold = 0 →
        (s.blk.st n = sRun →
          (b'.R n).floor = min floor (outIn 0 255 (i16 3 0 n)) ∧
          b'.fld REG_FIDX_PERMIT n = min asked (if (s.blk.R n).grant && !s.blk.wakeIgnored n then
            max cur (s.blk.withSnap.fld REG_FIDX_REQ n) else cur)) ∧
        (s.blk.st n = sLeaving → (s.blk.R n).descent = 1 → (s.blk.R n).abandon = false →
          b'.fld REG_FIDX_PERMIT n = min asked cur ∧ (b'.R n).floor = min floor (b'.R n).issue ∧
          ((s.blk.R n).forced = false → (b'.R n).issue = 0) ∧
          ((s.blk.R n).forced = true → (b'.R n).issue = (s.blk.R n).issue -
            ((s.blk.R n).issueAcc + max 1 (s.blk.efld PWR_SLOPE_FALL) * s.blk.tickNs) / 1000))) ∧
      (s.blk.eng.wrote.contains 5 = true →
        b'.fld REG_SELECT_VCAP n = w 0 % 2 ∧ b'.fld REG_SELECT_VFLOOR n = w 0 / 2 % 2 ∧ b'.fld REG_SELECT_IWIN n = w 0 / 4 % 8 ∧
        b'.fld REG_SELECT_PWIN n = w 0 / 32 % 8 ∧ b'.fld REG_SELECT_ADAPT n = w 1 ∧ b'.fld REG_FCAST_F1 n = w 2 ∧
        b'.fld REG_FCAST_F4 n = w 3 ∧
        b'.fld REG_CONFLICT_VCAP_CNT n = (s.blk.fld REG_CONFLICT_VCAP_CNT n +
          (if w 0 % 2 = 1 ∧ s.blk.fld REG_SELECT_VCAP n = 0 then 1 else 0)) % 65536 ∧
        b'.fld REG_CONFLICT_VFLOOR_CNT n = (s.blk.fld REG_CONFLICT_VFLOOR_CNT n +
          (if w 0 / 2 % 2 = 1 ∧ s.blk.fld REG_SELECT_VFLOOR n = 0 then 1 else 0)) % 65536) ∧
      (s.blk.eng.wrote.contains 5 = false → ∀ f ∈ [REG_SELECT_ADAPT, REG_FCAST_F1, REG_CONFLICT_VCAP_CNT],
        b'.reg (f.base + 4 * n) = s.blk.reg (f.base + 4 * n)))

/-- The choice of sleep at a boundary: DEPTH of every region is the deepest that the limit then in force allows, DEPTH of a group what
its limit allows all its regions, and with a region kept in RUN no clock is counted as stopped (R140, R165). A sleep request takes its
regions in RUN into a descent to DEPTH, and is refused for a busy one without FORCE (R144, R145). With HALT 0 an idle region of a
group with AUTO begins its descent (R143). -/
def Claims.BoundarySleep : Prop :=
  ∀ (s : State) (t : Nat) (a4 : Bool), commits s.blk →
    Completes (.tickBoundary t a4) s (fun b' =>
      (∀ n, n < 256 → b'.fld REG_PSTATE_DEPTH n = b'.deepest n (b'.limitOf n) b'.clk.stoppedCol) ∧
      (∀ g, g < 32 → b'.fld REG_GLAT_DEPTH g = b'.groupDepth g) ∧
      ((∃ n, n < 256 ∧ b'.st n = sRun ∧ b'.deepest n (b'.limitOf n) false = 0) → b'.clk.stoppedCol = false) ∧
      (∀ n g, n < 256 → b'.groupOf n = some g → s.blk.st n = sRun → s.blk.efld REG_PCTL_IDLE_MIN n = 0 →
        s.blk.fld REG_PCTL_IDLE_MIN n = 0 → s.blk.wakeIgnored n = false → 0 < b'.fld REG_PSTATE_DEPTH n →
        let descends := b'.st n = sLeaving ∧ (b'.R n).descent = 1 ∧ (b'.R n).depth = b'.fld REG_PSTATE_DEPTH n
        (s.blk.gsleep.get (fun _ => 0) g ≠ 0 →
          ((s.blk.gsleep.get (fun _ => 0) g = 2 ∨ (s.blk.R n).busy = false) → descends ∧ (b'.R n).forced = (s.blk.R n).busy) ∧
          (s.blk.gsleep.get (fun _ => 0) g ≠ 2 → (s.blk.R n).busy = true →
            b'.fld REG_PSTATE_REFUSED n = 1 ∧ b'.fld REG_GSLEEP_REFUSED g = 1 ∧
            (s.blk.bit ENG_CTL_HALT = true → b'.st n = sRun))) ∧
        (s.blk.bit ENG_CTL_HALT = false → b'.efld REG_GLAT_AUTO g = 1 → (s.blk.H g).tag = 0 →
          max 1 (b'.efld REG_GLAT_IDLE_WIN g) ≤ (s.blk.R n).zeroFrames → (∀ m, m < 256 → (s.blk.R m).exitAt = none) →
          descends)))

/-- The trace record of a completed tick (R478 to R483): none without a recording; in ONESHOT mode one of every tick with every row, an
END record in place of the tick's where memory has no room for both; in RING mode one of every DECIM ticks, with the rows and the
log that GROUPS selects, a KEY where one is due (the layout: log entry 51). -/
def Claims.BoundaryRecord : Prop :=
  ∀ (s : State) (t : Nat) (a4 : Bool), commits s.blk → s.blk.bit ENG_CTL_HALT = true → s.blk.trc.stopDue = false →
    let record := fun (key : Bool) (old new : List Nat) (log : List TrcEvent) =>
      ({ kind := if key then kKey else kTick, flags := 8 * s.blk.fld ENG_STATUS_DET + 16 * s.blk.fld ENG_STATUS_ARRAYS,
         len := recLen (recBody old new log), tickLo := s.blk.tickno % 2 ^ 32, twait := s.blk.eng.twaitAt.getD 0,
         stall := min 255 s.blk.eng.stalls, dropped := min 255 s.blk.trc.heldDropped, sig := s.blk.eng.signature.toNat,
         body := recBody old new log, rows := new } : TrcRec)
    let all := s.blk.snapRows
    let appends := fun r : TrcRec => Completes (.tickBoundary t a4) s (fun b' =>
      b'.trc.mem = s.blk.trc.mem ++ [r] ∧ b'.trc.rows = r.rows ∧ b'.trc.key = false)
    (s.blk.bit TRC_STATUS_RECORDING = false → Completes (.tickBoundary t a4) s (fun b' => b'.trc.mem = s.blk.trc.mem)) ∧
    (s.blk.bit TRC_STATUS_RECORDING = true → s.blk.trc.ring = false →
      let r := record s.blk.trc.key (if s.blk.trc.key then zeroRows else s.blk.trc.rows) all s.blk.trc.heldEvents
      (s.blk.trc.fill + r.len + 1 ≤ traceWords → appends r) ∧
      (traceWords < s.blk.trc.fill + r.len + 1 → Completes (.tickBoundary t a4) s (fun b' =>
        b'.fld TRC_STATUS_FULL = 1 ∧ b'.fld TRC_STATUS_RECORDING = 0 ∧ b'.trc.mem.getLast?.map (·.kind) = some kEnd))) ∧
    (s.blk.bit TRC_STATUS_RECORDING = true → s.blk.trc.ring = true →
      let groups := s.blk.efld TRC_CFG_GROUPS
      let key := s.blk.trc.key || s.blk.tickno % 256 = 0
      let old := if key then zeroRows else if s.blk.trc.rows.isEmpty then zeroRows else s.blk.trc.rows
      let new := (List.range 72).map (fun i => if rowSelected groups i then all.getD i 0 else old.getD i 0)
      let r := record key old new (if groups / 16 % 2 = 1 then s.blk.trc.heldEvents else [])
      (s.blk.trc.since = 0 → s.blk.trc.fill + r.len ≤ traceWords → appends r) ∧
      (s.blk.trc.since ≠ 0 → Completes (.tickBoundary t a4) s (fun b' => b'.trc.mem = s.blk.trc.mem)))

/-- The boundary of a tick. -/
def Obligations.TickBoundary : Prop :=
  Claims.Resume ∧ Claims.MissedTick ∧ Claims.CommittedTick ∧ Claims.RegionOutputs ∧ Claims.BoundarySleep ∧ Claims.BoundaryRecord

/-- A stopped engine clock restarts when PLL-E is ready after a restart event, and the next tick starts on the snapshot of that boundary,
or the engine halts (R20, R192, R197). That the hints that waited cross then (R28) is the model's choice (log entry 61), and so is that
INIT, stopped by a loss of PLL-E, goes on where it stood (R336; log entry 39). -/
def Claims.ClockRestart : Prop :=
  ∀ (s : State) (t : Nat), s.blk.Calm → s.blk.fld ENG_STATUS_STATE = eClockStopped → s.blk.eng.clockStopped = true →
    (s.blk.eng.restartReq = true → s.blk.clkReady kPLLE = true →
      ((s.blk.eng.run = .init ∨ s.blk.eng.twaitAt.isSome = true) → Completes (.engineClockRestart t) s (fun b' =>
        b'.fld ENG_STATUS_STATE = eInit ∧ b'.hintQ = [] ∧ b'.eng = { s.blk.eng with
          clockStopped := false, restartReq := false, stopCycle := none,
          boundAt := max s.blk.now t - s.blk.eng.stopCycle.getD 0 * 5 / 6 })) ∧
      (s.blk.eng.run ≠ .init → s.blk.eng.twaitAt = none → s.blk.Milds [srcSENSE_CRACK, srcCAPACITY, srcTRC_LOSS] →
        Completes (.engineClockRestart t) s (fun b' =>
          b'.hintQ = [] ∧ b'.eng.clockStopped = false ∧ b'.eng.outCom = s.blk.eng.outCom ∧
          (s.blk.bit ENG_CTL_HALT = false → s.blk.Ticked b') ∧
          (s.blk.bit ENG_CTL_HALT = true → b'.fld ENG_STATUS_STATE = eHalted)))) ∧
    ((s.blk.eng.restartReq = false ∨ s.blk.clkReady kPLLE = false) → Completes (.engineClockRestart t) s (fun b' =>
      b' = { s.blk with now := max s.blk.now t }))

/-- After the acceptance of an image INIT starts with TICKNO and the flags 0, on four arrays, A4 shadowing; A4 stands in for one
that failed; without A4 as well its quadrant is the orphan; with three or more failed the engine is FAILED (R191, R194 to R196,
R204). -/
def Claims.InitStarts : Prop :=
  ∀ (s : State) (t : Nat) (pass : List Bool), s.blk.img.accepted = true → s.blk.bit IMG_STATUS_SAFE = false →
    s.blk.fld ENG_STATUS_STATE = eStopped → s.blk.flt.step = 0 → s.blk.clkReady kPLLE = true → s.blk.inReset = false →
    s.blk.Mild srcENG_ARRAY_FAIL →
    let started := fun b' : Block =>
      b'.fld ENG_STATUS_STATE = eInit ∧ b'.eng.run = .init ∧ b'.eng.pc = s.blk.eng.initEntry ∧ b'.tickno = 0 ∧ b'.eng.inv = 0 ∧
      b'.eng.ovf = 0 ∧ b'.eng.smPend = [] ∧ b'.fld ENG_STATUS_ARRAYS = 4 ∧ b'.fld ENG_STATUS_TICKLEN = s.blk.fld ENG_STATUS_DET
    (s.blk.img.wear.any (fun e => e.kind = 3) = false →
      ((∀ a, a < 5 → pass.getD a true = true) → Completes (.initRun t pass) s (fun b' =>
        started b' ∧ (∀ a, a < 4 → b'.fld (arrayState a) = 0) ∧ b'.fld (arrayState 4) = 1)) ∧
      (∀ q, q < 4 → (∀ a, a < 5 → pass.getD a true = decide (a ≠ q)) → Completes (.initRun t pass) s (fun b' =>
        started b' ∧ b'.fld (arrayState q) = 2 ∧ b'.fld (arrayState 4) = 0 ∧ b'.fld ENG_ARRAY_A4_SERVES = q ∧
        s.blk.Raised b' srcENG_ARRAY_FAIL q)) ∧
      (∀ q, q < 4 → (∀ a, a < 5 → pass.getD a true = decide (a ≠ q ∧ a ≠ 4)) → Completes (.initRun t pass) s (fun b' =>
        started b' ∧ b'.fld (arrayState q) = 2 ∧ b'.fld (arrayState 4) = 2 ∧ b'.fld ENG_ARRAY_ORPHAN = q))) ∧
    (3 ≤ ((List.range 5).filter (fun a => !pass.getD a true)).length → Completes (.initRun t pass) s (fun b' =>
      b'.fld ENG_STATUS_STATE = eFailed ∧ b'.eng.run = s.blk.eng.run ∧
      (∀ a, a < 5 → pass.getD a true = false → b'.fld (arrayState a) = 2 ∧ s.blk.Raised b' srcENG_ARRAY_FAIL a)))

/-- Minimum safe mode's commit: a region in RUN has the fixed outputs, its ISSUE_LIMIT rising by 2 to 64; while its F_CUR is above the
permit its set-point is not lowered (R42, R43, R419). -/
def Claims.SafeModeCommits : Prop :=
  ∀ (s : State) (t : Nat), s.blk.Calm →
    (s.blk.bit IMG_STATUS_SAFE = true → s.blk.inReset = false → s.blk.thm.stopStep = 0 → s.blk.clk.forcing = false →
      s.blk.clk.issueHold = 0 → Completes (.safeModeCommit t) s (fun b' =>
        ∀ n, n < 256 → s.blk.st n = sRun →
          b'.fld REG_VSET_TARGET n = (if 0 < s.blk.fld REG_FIDX_CUR n then max (s.blk.fld REG_VSET_TARGET n) (s.blk.runTarget0 n)
            else s.blk.runTarget0 n) ∧
          (b'.R n).issue = min 64 ((s.blk.R n).issue + 2) ∧ (b'.R n).floor = 0 ∧ b'.fld REG_FIDX_PERMIT n = 0)) ∧
    (s.blk.bit IMG_STATUS_SAFE = false → Completes (.safeModeCommit t) s (fun b' => b' = { s.blk with now := max s.blk.now t }))

/-- The engine starts, restarts, or is replaced by the fixed outputs of minimum safe mode. -/
def Obligations.EngineStart : Prop := Claims.ClockRestart ∧ Claims.InitStarts ∧ Claims.SafeModeCommits

/-- The scrubber: a corrected word is counted and its time kept, and the second time within 1 s it is due for a remap; an
uncorrectable word takes a spare row at once and is zeroed, and MEM_UE raised (R170, R207, R394 to R396). A remap takes a row, and
redirects the word at once unless the engine runs. -/
def Claims.ScrubMemory : Prop :=
  ∀ (s : State) (t m : Nat) (hit : EccHit), s.blk.Calm → m < 5 → hit.word < memWords m →
    let x : MemWord := { mem := m, word := hit.word }
    let again := ∃ a, s.blk.eng.corrAt.get (fun _ => none) (wordElem m hit.word) = some a ∧ max s.blk.now t ≤ a + 1000000000
    let counted := fun b' : Block =>
      b'.fld ENG_ECC_CORR = (s.blk.fld ENG_ECC_CORR + 1) % 65536 ∧
      b'.eng.corrAt.get (fun _ => none) (wordElem m hit.word) = some (max s.blk.now t)
    Completes (.scrubAccess t m hit false false) s (fun b' => b' = { s.blk with now := max s.blk.now t }) ∧
    (hit.ue = false → ¬ again → Completes (.scrubAccess t m hit true false) s (fun b' =>
      counted b' ∧ b'.eng = { s.blk.eng with corrAt := b'.eng.corrAt } ∧ s.blk.RegsKept b' [ENG_ECC_CORR.base])) ∧
    (hit.ue = false → again → s.blk.eng.remapDue.contains x = false → s.blk.eng.copied.contains x = false →
      s.blk.fld FLT_ROWS_LEFT m ≠ 0 → Completes (.scrubAccess t m hit true false) s (fun b' =>
        counted b' ∧ b'.eng = { s.blk.eng with corrAt := b'.eng.corrAt, remapDue := s.blk.eng.remapDue ++ [x] } ∧
        s.blk.RegsKept b' [ENG_ECC_CORR.base])) ∧
    (hit.ue = true → s.blk.fld FLT_ROWS_LEFT m ≠ 0 → s.blk.Milds [srcMEM_UE, srcMEM_SPARE_LOW] →
      Completes (.scrubAccess t m hit true false) s (fun b' =>
        b'.eng.word m hit.word = 0 ∧ (∀ w, w ≠ hit.word → b'.eng.word m w = s.blk.eng.word m w) ∧ x ∈ b'.eng.remapped ∧
        b'.fld ENG_ECC_UE_MEM = m + 1 ∧ b'.fld FLT_ROWS_LEFT m = s.blk.fld FLT_ROWS_LEFT m - 1 ∧ s.blk.Raised b' srcMEM_UE m)) ∧
    (s.blk.eng.remapDue.contains x = true → s.blk.fld FLT_ROWS_LEFT m ≠ 0 → s.blk.Mild srcMEM_SPARE_LOW →
      Completes (.scrubRemap m hit.word) s (fun b' =>
        b'.fld FLT_ROWS_LEFT m = s.blk.fld FLT_ROWS_LEFT m - 1 ∧
        b'.fld FLT_ROWS_USED m = (s.blk.fld FLT_ROWS_USED m + 1) % 2 ^ 14 ∧ x ∉ b'.eng.remapDue ∧
        (s.blk.fld ENG_STATUS_STATE = eRunning → x ∈ b'.eng.copied ∧ b'.eng.remapped = s.blk.eng.remapped) ∧
        (s.blk.fld ENG_STATUS_STATE ≠ eRunning → x ∈ b'.eng.remapped))) ∧
    (s.blk.eng.remapDue.contains x = true → s.blk.fld FLT_ROWS_LEFT m = 0 → s.blk.Mild srcMEM_SPARE_OUT →
      Completes (.scrubRemap m hit.word) s (fun b' =>
        x ∉ b'.eng.remapDue ∧ s.blk.Raised b' srcMEM_SPARE_OUT m ∧ s.blk.RegsKept b' []))

/-- The scrubber in trace memory: a corrected word is not counted in ENG_ECC, whose time alone is kept (R207); an uncorrectable word
takes a spare row at once, its record is lost, of which a GAP record of its place and length holds the ticks and the first TICKNO, and
TRC_LOSS is raised (R394, R395, R482). That the GAP stands there is the model's choice (log entry 51). -/
def Claims.ScrubTrace : Prop :=
  ∀ (s : State) (t : Nat) (hit : EccHit), s.blk.Calm → hit.word < memWords 5 →
    Completes (.scrubAccess t 5 hit false false) s (fun b' => b' = { s.blk with now := max s.blk.now t }) ∧
    (hit.ue = false → (∀ a, s.blk.eng.corrAt.get (fun _ => none) (wordElem 5 hit.word) = some a → a + 1000000000 < max s.blk.now t) →
      Completes (.scrubAccess t 5 hit true false) s (fun b' =>
        b'.eng.corrAt.get (fun _ => none) (wordElem 5 hit.word) = some (max s.blk.now t) ∧ b'.trc = s.blk.trc ∧
        b'.eng = { s.blk.eng with corrAt := b'.eng.corrAt } ∧ s.blk.RegsKept b' [])) ∧
    (hit.ue = true → s.blk.fld FLT_ROWS_LEFT 5 ≠ 0 → s.blk.Milds [srcTRC_LOSS, srcMEM_SPARE_LOW] →
      Completes (.scrubAccess t 5 hit true false) s (fun b' =>
        { mem := 5, word := hit.word } ∈ b'.eng.remapped ∧ b'.fld FLT_ROWS_LEFT 5 = s.blk.fld FLT_ROWS_LEFT 5 - 1 ∧
        s.blk.Raised b' srcTRC_LOSS 0 ∧ b'.fld TRC_STATUS_LOSS = 1 ∧ b'.fld ENG_ECC_UE_MEM = s.blk.fld ENG_ECC_UE_MEM ∧
        (∀ (before : List TrcRec) (r : TrcRec) (after : List TrcRec), s.blk.trc.mem = before ++ r :: after →
          let d := (hit.word + traceWords - s.blk.trc.base) % traceWords
          (before.map (·.len)).sum ≤ d → d < (before.map (·.len)).sum + r.len →
          ∃ g : TrcRec, b'.trc.mem = before ++ g :: after ∧ g.kind = kGap ∧ g.len = r.len ∧ g.tickLo = r.tickLo ∧
            g.twait = (if r.kind = kTick ∨ r.kind = kKey then 1 else if r.kind = kGap then r.twait else 0))))

/-- The scrubber. -/
def Obligations.Scrubbing : Prop := Claims.ScrubMemory ∧ Claims.ScrubTrace
end

