-- ==== Sys2Proof/Decode.lean ====
section
/-! DEFINITION. The command a table word spells. The rows of spec/opcode_table.json give no bits, so every word is
refused: commands come to the block as events, with their operands, through its queue. -/

namespace Sys2Proof

/-- The command spelled by `nbits` bits of value `w`: none, since no row of the table gives bits. DEDUCED, log 15. -/
def decodeTableWord (_nbits _w : Nat) : Option Instr := none

end Sys2Proof
end

