-- ==== Sys2Proof/Laws/Maps.lean ====
section
/-! SUPPORT. What reading and writing a sparse table do: a read after a write, the writes elsewhere, and that a write
keeps the canonical form. -/

namespace Sys2Proof.Machine

variable {α : Type}

theorem SMap.get_erase_same (d : Nat → α) (m : SMap α) (k : Nat) : (m.erase k).get d k = d k := by
  induction m with
  | nil => rfl
  | cons e r ih =>
    obtain ⟨j, v⟩ := e
    by_cases h : j = k
    · simp [SMap.erase, h, ih]
    · simp [SMap.erase, h, SMap.get, ih]

theorem SMap.get_erase_other (d : Nat → α) (m : SMap α) {k i : Nat} (hi : i ≠ k) :
    (m.erase k).get d i = m.get d i := by
  induction m with
  | nil => rfl
  | cons e r ih =>
    obtain ⟨j, v⟩ := e
    by_cases h : j = k
    · have hne : j ≠ i := fun e => hi (e ▸ h)
      simp [SMap.erase, h, SMap.get, ih]
      intro hki
      exact absurd hki.symm hi
    · simp [SMap.erase, h, SMap.get, ih]

theorem SMap.length_erase (m : SMap α) (k : Nat) : (SMap.erase m k).length ≤ m.length := by
  induction m with
  | nil => simp [SMap.erase]
  | cons e r ih =>
    obtain ⟨j, v⟩ := e
    simp only [SMap.erase]
    split <;> simp <;> omega

/-- Where erasing `k` changes nothing, `k` is not the first index. -/
theorem SMap.head_ne {j k : Nat} {v : α} {r : SMap α} (h : SMap.erase ((j, v) :: r) k = (j, v) :: r) :
    j ≠ k ∧ SMap.erase r k = r := by
  by_cases hj : j = k
  · exfalso
    have h2 := SMap.length_erase r k
    simp only [SMap.erase, hj, if_true] at h
    rw [h] at h2
    simp only [List.length_cons] at h2
    omega
  · simp only [SMap.erase, hj, if_false, List.cons.injEq, true_and] at h
    exact ⟨hj, h⟩

theorem SMap.get_place_same (d : Nat → α) (m : SMap α) (k : Nat) (v : α) (hm : (m.erase k) = m) :
    (m.place k v).get d k = v := by
  induction m with
  | nil => simp [SMap.place, SMap.get]
  | cons e r ih =>
    obtain ⟨j, w⟩ := e
    obtain ⟨hj, hr⟩ := SMap.head_ne hm
    simp only [SMap.place]
    split
    · simp [SMap.get]
    · simp [SMap.get, hj, ih hr]

theorem SMap.get_place_other (d : Nat → α) (m : SMap α) {k i : Nat} (v : α) (hi : i ≠ k) :
    (m.place k v).get d i = m.get d i := by
  induction m with
  | nil => simp [SMap.place, SMap.get, Ne.symm hi]
  | cons e r ih =>
    obtain ⟨j, w⟩ := e
    simp only [SMap.place]
    split
    · simp [SMap.get, Ne.symm hi]
    · simp [SMap.get, ih]

theorem SMap.erase_erase (m : SMap α) (k : Nat) : (m.erase k).erase k = m.erase k := by
  induction m with
  | nil => rfl
  | cons e r ih =>
    obtain ⟨j, v⟩ := e
    by_cases h : j = k
    · simp [SMap.erase, h, ih]
    · simp [SMap.erase, h, ih]

/-- A read of the index just written gives the value written. -/
@[simp] theorem SMap.get_set_same [DecidableEq α] (d : Nat → α) (m : SMap α) (k : Nat) (v : α) :
    (m.set d k v).get d k = v := by
  unfold SMap.set
  split
  · next h => rw [SMap.get_erase_same, h]
  · exact SMap.get_place_same d _ k v (SMap.erase_erase m k)

/-- A write leaves every other index alone. -/
theorem SMap.get_set_other [DecidableEq α] (d : Nat → α) (m : SMap α) {k i : Nat} (v : α) (hi : i ≠ k) :
    (m.set d k v).get d i = m.get d i := by
  unfold SMap.set
  split
  · exact SMap.get_erase_other d m hi
  · rw [SMap.get_place_other d _ v hi, SMap.get_erase_other d m hi]

theorem SMap.wfFrom_mono [DecidableEq α] (d : Nat → α) {lo hi : Nat} (h : lo ≤ hi) (m : SMap α)
    (hm : m.wfFrom d hi = true) : m.wfFrom d lo = true := by
  cases m with
  | nil => rfl
  | cons e r =>
    obtain ⟨j, v⟩ := e
    simp [SMap.wfFrom] at hm ⊢
    exact ⟨⟨by omega, hm.1.2⟩, hm.2⟩

theorem SMap.wfFrom_erase [DecidableEq α] (d : Nat → α) (m : SMap α) (k : Nat) :
    ∀ lo, m.wfFrom d lo = true → (m.erase k).wfFrom d lo = true := by
  induction m with
  | nil => intro lo _; rfl
  | cons e r ih =>
    obtain ⟨j, v⟩ := e
    intro lo hm
    simp only [SMap.wfFrom, Bool.and_eq_true, decide_eq_true_eq] at hm
    simp only [SMap.erase]
    split
    · exact ih lo (SMap.wfFrom_mono d (by omega) r hm.2)
    · simp only [SMap.wfFrom, Bool.and_eq_true, decide_eq_true_eq]
      exact ⟨hm.1, ih _ hm.2⟩

theorem SMap.wfFrom_place [DecidableEq α] (d : Nat → α) (m : SMap α) (k : Nat) (v : α) (hv : v ≠ d k)
    (hm : m.erase k = m) : ∀ lo, lo ≤ k → m.wfFrom d lo = true → (m.place k v).wfFrom d lo = true := by
  induction m with
  | nil =>
    intro lo hlo _
    simp [SMap.place, SMap.wfFrom, hv, hlo]
  | cons e r ih =>
    obtain ⟨j, w⟩ := e
    intro lo hlo hw
    obtain ⟨hj, hr⟩ := SMap.head_ne hm
    simp only [SMap.wfFrom, Bool.and_eq_true, decide_eq_true_eq] at hw
    simp only [SMap.place]
    split
    · next hkj =>
      simp only [SMap.wfFrom, Bool.and_eq_true, decide_eq_true_eq]
      exact ⟨⟨hlo, hv⟩, ⟨by omega, hw.1.2⟩, hw.2⟩
    · next hkj =>
      simp only [SMap.wfFrom, Bool.and_eq_true, decide_eq_true_eq]
      exact ⟨hw.1, ih hr (j + 1) (by omega) hw.2⟩

/-- A write keeps the canonical form. -/
theorem SMap.wf_set [DecidableEq α] (d : Nat → α) (m : SMap α) (k : Nat) (v : α) (hm : m.wf d = true) :
    (m.set d k v).wf d = true := by
  unfold SMap.set SMap.wf at *
  split
  · exact SMap.wfFrom_erase d m k 0 hm
  · next hv =>
    exact SMap.wfFrom_place d _ k v hv (SMap.erase_erase m k) 0 (Nat.zero_le _)
      (SMap.wfFrom_erase d m k 0 hm)

end Sys2Proof.Machine
end

