-- ==== Sys2Proof/Laws/Fields.lean ====
section
/-! SUPPORT. Register words and their fields: a read after a write of the same field, of another field of the word, and of
another word. -/

namespace Sys2Proof.Machine

/-- A field with its bits in a 32-bit word. -/
def Fld.ok (f : Fld) : Prop := f.lo ≤ f.hi ∧ f.hi < 32

theorem Fld.getLsbD_mask (f : Fld) (i : Nat) : (Fld.mask f).getLsbD i = decide (i < 32 ∧ f.lo ≤ i ∧ i < f.lo + (f.hi + 1 - f.lo)) := by
  unfold Fld.mask
  rw [BitVec.getLsbD_shiftLeft, BitVec.getLsbD_ofNat, Nat.testBit_two_pow_sub_one]
  have e : f.lo ≤ i → (i - f.lo < f.hi + 1 - f.lo ↔ i < f.lo + (f.hi + 1 - f.lo)) := fun h => by omega
  by_cases h1 : i < 32 <;> by_cases h2 : f.lo ≤ i
  · have h3 : i - f.lo < 32 := by omega
    simp [h1, h2, h3, e h2]
  all_goals simp [h1, h2]

theorem Fld.getLsbD_put (f : Fld) (w : Word) (v i : Nat) (hi : i < 32) :
    (Fld.put f w v).getLsbD i = if f.lo ≤ i ∧ i < f.lo + (f.hi + 1 - f.lo) then v.testBit (i - f.lo) else w.getLsbD i := by
  unfold Fld.put
  simp only [BitVec.getLsbD_or, BitVec.getLsbD_and, BitVec.getLsbD_not, BitVec.getLsbD_shiftLeft, BitVec.getLsbD_ofNat, Fld.getLsbD_mask]
  by_cases h : f.lo ≤ i ∧ i < f.lo + (f.hi + 1 - f.lo)
  · have h2 : ¬ i < f.lo := by omega
    have h3 : i - f.lo < 32 := by omega
    simp [hi, h, h2, h3]
  · simp [hi, h]

theorem Fld.testBit_get (f : Fld) (w : Word) (j : Nat) :
    (Fld.get f w).testBit j = (decide (j < f.hi + 1 - f.lo) && w.getLsbD (f.lo + j)) := by
  unfold Fld.get
  rw [BitVec.testBit_toNat, BitVec.getLsbD_ushiftRight, BitVec.getLsbD_and, Fld.getLsbD_mask]
  by_cases h : j < f.hi + 1 - f.lo
  · by_cases h2 : f.lo + j < 32
    · simp [h, h2]
    · rw [BitVec.getLsbD_of_ge w (f.lo + j) (by omega)]; simp
  · simp [h]

/-- The field just written reads the value, modulo the field's width. -/
theorem Fld.get_put_same (f : Fld) (w : Word) (v : Nat) (hf : f.hi < 32) :
    Fld.get f (Fld.put f w v) = v % 2 ^ (f.hi + 1 - f.lo) := by
  apply Nat.eq_of_testBit_eq
  intro j
  rw [Fld.testBit_get, Nat.testBit_mod_two_pow]
  by_cases h : j < f.hi + 1 - f.lo
  · rw [Fld.getLsbD_put f w v _ (by omega)]
    simp [h]
  · simp [h]

/-- Another field of the word keeps its value. -/
theorem Fld.get_put_other (f g : Fld) (w : Word) (v : Nat) (h : g.hi < f.lo ∨ f.hi < g.lo) :
    Fld.get g (Fld.put f w v) = Fld.get g w := by
  apply Nat.eq_of_testBit_eq
  intro j
  rw [Fld.testBit_get, Fld.testBit_get]
  by_cases hj : j < g.hi + 1 - g.lo
  · by_cases h2 : g.lo + j < 32
    · rw [Fld.getLsbD_put f w v _ h2, if_neg (by omega)]
    · rw [BitVec.getLsbD_of_ge _ _ (by omega), BitVec.getLsbD_of_ge _ _ (by omega)]
  · simp [hj]

/-- A field's value is below its range. -/
theorem Fld.get_lt (f : Fld) (w : Word) : Fld.get f w < 2 ^ (f.hi + 1 - f.lo) := by
  apply Nat.lt_pow_two_of_testBit
  intro j hj
  rw [Fld.testBit_get]
  simp [Nat.not_lt.mpr hj]

@[simp] theorem Block.reg_setReg_same (b : Block) (a : Nat) (w : Word) : (b.setReg a w).reg a = w := by
  simp [Block.setReg, Block.reg]

theorem Block.reg_setReg_other (b : Block) {a c : Nat} (w : Word) (h : c ≠ a) : (b.setReg a w).reg c = b.reg c := by
  simp [Block.setReg, Block.reg, SMap.get_set_other resetWord b.regs w h]

/-- A word other than the one that holds the field keeps its value. -/
theorem Block.reg_put_other (b : Block) (f : Fld) (v i : Nat) {c : Nat} (h : c ≠ f.base + 4 * i) : (b.put f v i).reg c = b.reg c :=
  b.reg_setReg_other _ h

/-- The field just written. -/
theorem Block.fld_put_same (b : Block) (f : Fld) (v i : Nat) (hf : f.hi < 32) :
    (b.put f v i).fld f i = v % 2 ^ (f.hi + 1 - f.lo) := by
  simp [Block.put, Block.fld, Fld.get_put_same f _ v hf]

/-- A field elsewhere, or of other bits. -/
theorem Block.fld_put_other (b : Block) (f g : Fld) (v i j : Nat)
    (h : g.base + 4 * j ≠ f.base + 4 * i ∨ g.hi < f.lo ∨ f.hi < g.lo) : (b.put f v i).fld g j = b.fld g j := by
  unfold Block.fld
  by_cases ha : g.base + 4 * j = f.base + 4 * i
  · have h2 : g.hi < f.lo ∨ f.hi < g.lo := by
      rcases h with h | h
      · exact absurd ha h
      · exact h
    rw [ha]
    simp only [Block.put, Block.reg_setReg_same]
    exact Fld.get_put_other f g _ v h2
  · rw [Block.reg_put_other b f v i ha]

/-- The record just changed. -/
@[simp] theorem Block.R_modR_same (b : Block) (n : Nat) (f : Rgn → Rgn) : (b.modR n f).R n = f (b.R n) := by
  simp [Block.modR, Block.R]
theorem Block.R_modR_other (b : Block) {n m : Nat} (f : Rgn → Rgn) (h : m ≠ n) : (b.modR n f).R m = b.R m := by
  simp [Block.modR, Block.R, SMap.get_set_other _ b.rgn _ h]
@[simp] theorem Block.P_modP_same (b : Block) (p : Nat) (f : Ph → Ph) : (b.modP p f).P p = f (b.P p) := by
  simp [Block.modP, Block.P]
theorem Block.P_modP_other (b : Block) {p q : Nat} (f : Ph → Ph) (h : q ≠ p) : (b.modP p f).P q = b.P q := by
  simp [Block.modP, Block.P, SMap.get_set_other _ b.ph _ h]
@[simp] theorem Block.W_modW_same (b : Block) (w : Nat) (f : Wv → Wv) : (b.modW w f).W w = f (b.W w) := by
  simp [Block.modW, Block.W]
theorem Block.W_modW_other (b : Block) {w x : Nat} (f : Wv → Wv) (h : x ≠ w) : (b.modW w f).W x = b.W x := by
  simp [Block.modW, Block.W, SMap.get_set_other _ b.wv _ h]

/-- What no single change of a list alters, the changes together do not. -/
theorem Block.each_keeps {α : Type} (p : Block → α) (f : Block → Nat → Block) (h : ∀ b k, p (f b k) = p b) (ks : List Nat) :
    ∀ b : Block, p (b.each ks f) = p b := by
  induction ks with
  | nil => intro b; rfl
  | cons k r ih => intro b; exact (ih (f b k)).trans (h b k)

/-- What holds after every change of a list, given that it held before. -/
theorem Block.each_inv (inv : Block → Prop) (f : Block → Nat → Block) (h : ∀ b k, inv b → inv (f b k)) (ks : List Nat) :
    ∀ b : Block, inv b → inv (b.each ks f) := by
  induction ks with
  | nil => intro b hb; exact hb
  | cons k r ih => intro b hb; exact ih (f b k) (h b k hb)

/-- A conditional change alters nothing that the change does not. -/
theorem Block.when_keeps {α : Type} (p : Block → α) (c : Bool) (f : Block → Block) (b : Block) (h : p (f b) = p b) : p (b.when c f) = p b := by
  unfold Block.when
  split
  · exact h
  · rfl

end Sys2Proof.Machine
end

