-- ==== Sys2Proof/Laws/Flash.lean ====
section
/-! SUPPORT. Bytes of the flash: numbers as bytes and back, runs laid over a window, and lists of zero bytes (R409, R410). -/

namespace Sys2Proof.Machine

/-- A run that starts at the window and is as long as it gives all of it. -/
theorem overlay_self (a : Nat) (bs xs : List Byte) (h : bs.length = xs.length) : overlay a ⟨a, bs⟩ xs = bs := by
  have h' : List.take xs.length bs = bs := by rw [← h]; exact List.take_length
  have h'' : List.drop bs.length xs = [] := by rw [h]; exact List.drop_length
  by_cases hx : xs.length = 0
  · have hb : bs = [] := List.length_eq_zero_iff.mp (by omega)
    have hx' : xs = [] := List.length_eq_zero_iff.mp hx
    simp [overlay, hb, hx']
  · have : ¬ (xs.length ≤ 0) := by omega
    simp [overlay, h', h'', hx]

/-- A run that starts beyond the window leaves it. -/
theorem overlay_above (a : Nat) (s : FlashSeg) (xs : List Byte) (h : a + xs.length ≤ s.base) : overlay a s xs = xs := by
  have : xs.length ≤ s.base - a := by omega
  simp [overlay, this]

/-- A run that ends before the window leaves it. -/
theorem overlay_below (a : Nat) (s : FlashSeg) (xs : List Byte) (h : s.base + s.bytes.length ≤ a) : overlay a s xs = xs := by
  have h1 : s.base - a = 0 := by omega
  have h2 : s.bytes.drop (a - s.base) = [] := List.drop_eq_nil_iff.mpr (by omega)
  simp [overlay, h1, h2]

/-- The number of the bytes of a number. -/
theorem leNat_leBytes (n v : Nat) : leNat (leBytes n v) = v % 256 ^ n := by
  induction n generalizing v with
  | zero => simp [leBytes, leNat, Nat.mod_one]
  | succ n ih =>
    simp only [leBytes, leNat, ih, BitVec.toNat_ofNat]
    have : (256 : Nat) ^ (n + 1) = 256 * 256 ^ n := by rw [Nat.pow_succ, Nat.mul_comm]
    rw [this, Nat.mod_mul]

theorem leBytes_length (n v : Nat) : (leBytes n v).length = n := by
  induction n generalizing v with
  | zero => rfl
  | succ n ih => simp [leBytes, ih]

/-- What holds of every element of a list holds in each of its pieces. -/
theorem pieces_mem {α : Type} (k : Nat) (P : α → Prop) : ∀ (fuel : Nat) (l : List α), (∀ x, x ∈ l → P x) →
    ∀ c, c ∈ pieces k fuel l → ∀ x, x ∈ c → P x := by
  intro fuel
  induction fuel with
  | zero => intro l _ c hc; simp [pieces] at hc
  | succ n ih =>
    intro l h c hc x hx
    unfold pieces at hc
    split at hc
    · simp at hc
    · rcases List.mem_cons.mp hc with rfl | hc
      · exact h x (List.mem_of_mem_take hx)
      · exact ih (l.drop k) (fun y hy => h y (List.mem_of_mem_drop hy)) c hc x hx

/-- Zero bytes spell 0. -/
theorem leNat_zeros (bs : List Byte) (h : ∀ x, x ∈ bs → x = 0) : leNat bs = 0 := by
  induction bs with
  | nil => rfl
  | cons a r ih =>
    have ha : a = 0 := h a (by simp)
    have hr := ih (fun x hx => h x (by simp [hx]))
    simp [leNat, ha, hr]

theorem leWords_zeros (k : Nat) (bs : List Byte) (hz : ∀ x, x ∈ bs → x = 0) (v : Nat) (h : v ∈ leWords k bs) : v = 0 := by
  obtain ⟨c, hc, rfl⟩ := List.mem_map.mp h
  exact leNat_zeros c (pieces_mem k (· = 0) _ _ hz c hc)

theorem pairs_zeros (bs : List Byte) (hz : ∀ x, x ∈ bs → x = 0) (p : Nat × Nat) (h : p ∈ pairs bs) : p.1 = 0 := by
  obtain ⟨c, hc, rfl⟩ := List.mem_map.mp h
  have hz := pieces_mem 4 (· = 0) _ _ hz c hc
  exact leNat_zeros _ (fun x hx => hz x (List.mem_of_mem_drop (List.mem_of_mem_take hx)))

/-- A run that no other run of the flash meets is read back. -/
theorem readFlash_seg (pre post : List FlashSeg) (a : Nat) (bs : List Byte) (k : Bool) (d : Nat)
    (hpre : ∀ s, s ∈ pre → s.base + s.bytes.length ≤ a) (hpost : ∀ s, s ∈ post → a + bs.length ≤ s.base) :
    readFlash ⟨pre ++ ⟨a, bs⟩ :: post, k, d⟩ a bs.length = bs := by
  have h2 : ∀ l : List FlashSeg, (∀ s, s ∈ l → a + bs.length ≤ s.base) →
      l.foldr (overlay a) (List.replicate bs.length 0xFF) = List.replicate bs.length 0xFF := by
    intro l
    induction l with
    | nil => intro _; rfl
    | cons s r ih =>
      intro h
      rw [List.foldr_cons, ih (fun s hs => h s (by simp [hs]))]
      exact overlay_above _ _ _ (by simpa using h s (by simp))
  have h1 : ∀ l : List FlashSeg, (∀ s, s ∈ l → s.base + s.bytes.length ≤ a) → l.foldr (overlay a) bs = bs := by
    intro l
    induction l with
    | nil => intro _; rfl
    | cons s r ih =>
      intro h
      rw [List.foldr_cons, ih (fun s hs => h s (by simp [hs]))]
      exact overlay_below _ _ _ (h s (by simp))
  simp only [readFlash, List.foldr_append, List.foldr_cons]
  rw [h2 post hpost, overlay_self _ _ _ (by simp), h1 pre hpre]

end Sys2Proof.Machine
end

