-- ==== Sys2Proof/Laws/State.lean ====
section
/-! SUPPORT. What each named update of the block leaves alone: one lemma for each field and update. -/

namespace Sys2Proof.Machine

@[simp] theorem Block.setReg_now (b : Block) (a : Nat) (w : Word) : (b.setReg a w).now = b.now := rfl
@[simp] theorem Block.setReg_slo (b : Block) (a : Nat) (w : Word) : (b.setReg a w).slo = b.slo := rfl
@[simp] theorem Block.setReg_freeCtr (b : Block) (a : Nat) (w : Word) : (b.setReg a w).freeCtr = b.freeCtr := rfl
@[simp] theorem Block.setReg_eff (b : Block) (a : Nat) (w : Word) : (b.setReg a w).eff = b.eff := rfl
@[simp] theorem Block.setReg_rdata (b : Block) (a : Nat) (w : Word) : (b.setReg a w).rdata = b.rdata := rfl
@[simp] theorem Block.setReg_tickHi (b : Block) (a : Nat) (w : Word) : (b.setReg a w).tickHi = b.tickHi := rfl
@[simp] theorem Block.setReg_chipHi (b : Block) (a : Nat) (w : Word) : (b.setReg a w).chipHi = b.chipHi := rfl
@[simp] theorem Block.setReg_energyHi (b : Block) (a : Nat) (w : Word) : (b.setReg a w).energyHi = b.energyHi := rfl
@[simp] theorem Block.setReg_vinGood (b : Block) (a : Nat) (w : Word) : (b.setReg a w).vinGood = b.vinGood := rfl
@[simp] theorem Block.setReg_aonUp (b : Block) (a : Nat) (w : Word) : (b.setReg a w).aonUp = b.aonUp := rfl
@[simp] theorem Block.setReg_quiesceReq (b : Block) (a : Nat) (w : Word) : (b.setReg a w).quiesceReq = b.quiesceReq := rfl
@[simp] theorem Block.setReg_quiesceAck (b : Block) (a : Nat) (w : Word) : (b.setReg a w).quiesceAck = b.quiesceAck := rfl
@[simp] theorem Block.setReg_inReset (b : Block) (a : Nat) (w : Word) : (b.setReg a w).inReset = b.inReset := rfl
@[simp] theorem Block.setReg_resetAt (b : Block) (a : Nat) (w : Word) : (b.setReg a w).resetAt = b.resetAt := rfl
@[simp] theorem Block.setReg_extest (b : Block) (a : Nat) (w : Word) : (b.setReg a w).extest = b.extest := rfl
@[simp] theorem Block.setReg_trustedPin (b : Block) (a : Nat) (w : Word) : (b.setReg a w).trustedPin = b.trustedPin := rfl
@[simp] theorem Block.setReg_trstLow (b : Block) (a : Nat) (w : Word) : (b.setReg a w).trstLow = b.trstLow := rfl
@[simp] theorem Block.setReg_gsleep (b : Block) (a : Nat) (w : Word) : (b.setReg a w).gsleep = b.gsleep := rfl
@[simp] theorem Block.setReg_clearDue (b : Block) (a : Nat) (w : Word) : (b.setReg a w).clearDue = b.clearDue := rfl
@[simp] theorem Block.setReg_hintQ (b : Block) (a : Nat) (w : Word) : (b.setReg a w).hintQ = b.hintQ := rfl
@[simp] theorem Block.setReg_tapInstr (b : Block) (a : Nat) (w : Word) : (b.setReg a w).tapInstr = b.tapInstr := rfl
@[simp] theorem Block.setReg_tapOut (b : Block) (a : Nat) (w : Word) : (b.setReg a w).tapOut = b.tapOut := rfl
@[simp] theorem Block.setReg_rgn (b : Block) (a : Nat) (w : Word) : (b.setReg a w).rgn = b.rgn := rfl
@[simp] theorem Block.setReg_ph (b : Block) (a : Nat) (w : Word) : (b.setReg a w).ph = b.ph := rfl
@[simp] theorem Block.setReg_wv (b : Block) (a : Nat) (w : Word) : (b.setReg a w).wv = b.wv := rfl
@[simp] theorem Block.setReg_flt (b : Block) (a : Nat) (w : Word) : (b.setReg a w).flt = b.flt := rfl
@[simp] theorem Block.setReg_eng (b : Block) (a : Nat) (w : Word) : (b.setReg a w).eng = b.eng := rfl
@[simp] theorem Block.setReg_img (b : Block) (a : Nat) (w : Word) : (b.setReg a w).img = b.img := rfl
@[simp] theorem Block.setReg_thm (b : Block) (a : Nat) (w : Word) : (b.setReg a w).thm = b.thm := rfl
@[simp] theorem Block.setReg_clk (b : Block) (a : Nat) (w : Word) : (b.setReg a w).clk = b.clk := rfl
@[simp] theorem Block.setReg_hint (b : Block) (a : Nat) (w : Word) : (b.setReg a w).hint = b.hint := rfl
@[simp] theorem Block.setReg_hoop (b : Block) (a : Nat) (w : Word) : (b.setReg a w).hoop = b.hoop := rfl
@[simp] theorem Block.setReg_red (b : Block) (a : Nat) (w : Word) : (b.setReg a w).red = b.red := rfl
@[simp] theorem Block.setReg_adc (b : Block) (a : Nat) (w : Word) : (b.setReg a w).adc = b.adc := rfl
@[simp] theorem Block.setReg_snap (b : Block) (a : Nat) (w : Word) : (b.setReg a w).snap = b.snap := rfl
@[simp] theorem Block.setReg_trc (b : Block) (a : Nat) (w : Word) : (b.setReg a w).trc = b.trc := rfl
@[simp] theorem Block.setReg_aonAt (b : Block) (a : Nat) (w : Word) : (b.setReg a w).aonAt = b.aonAt := rfl

@[simp] theorem Block.put_now (b : Block) (f : Fld) (v i : Nat) : (b.put f v i).now = b.now := rfl
@[simp] theorem Block.put_slo (b : Block) (f : Fld) (v i : Nat) : (b.put f v i).slo = b.slo := rfl
@[simp] theorem Block.put_freeCtr (b : Block) (f : Fld) (v i : Nat) : (b.put f v i).freeCtr = b.freeCtr := rfl
@[simp] theorem Block.put_eff (b : Block) (f : Fld) (v i : Nat) : (b.put f v i).eff = b.eff := rfl
@[simp] theorem Block.put_rdata (b : Block) (f : Fld) (v i : Nat) : (b.put f v i).rdata = b.rdata := rfl
@[simp] theorem Block.put_tickHi (b : Block) (f : Fld) (v i : Nat) : (b.put f v i).tickHi = b.tickHi := rfl
@[simp] theorem Block.put_chipHi (b : Block) (f : Fld) (v i : Nat) : (b.put f v i).chipHi = b.chipHi := rfl
@[simp] theorem Block.put_energyHi (b : Block) (f : Fld) (v i : Nat) : (b.put f v i).energyHi = b.energyHi := rfl
@[simp] theorem Block.put_vinGood (b : Block) (f : Fld) (v i : Nat) : (b.put f v i).vinGood = b.vinGood := rfl
@[simp] theorem Block.put_aonUp (b : Block) (f : Fld) (v i : Nat) : (b.put f v i).aonUp = b.aonUp := rfl
@[simp] theorem Block.put_quiesceReq (b : Block) (f : Fld) (v i : Nat) : (b.put f v i).quiesceReq = b.quiesceReq := rfl
@[simp] theorem Block.put_quiesceAck (b : Block) (f : Fld) (v i : Nat) : (b.put f v i).quiesceAck = b.quiesceAck := rfl
@[simp] theorem Block.put_inReset (b : Block) (f : Fld) (v i : Nat) : (b.put f v i).inReset = b.inReset := rfl
@[simp] theorem Block.put_resetAt (b : Block) (f : Fld) (v i : Nat) : (b.put f v i).resetAt = b.resetAt := rfl
@[simp] theorem Block.put_extest (b : Block) (f : Fld) (v i : Nat) : (b.put f v i).extest = b.extest := rfl
@[simp] theorem Block.put_trustedPin (b : Block) (f : Fld) (v i : Nat) : (b.put f v i).trustedPin = b.trustedPin := rfl
@[simp] theorem Block.put_trstLow (b : Block) (f : Fld) (v i : Nat) : (b.put f v i).trstLow = b.trstLow := rfl
@[simp] theorem Block.put_gsleep (b : Block) (f : Fld) (v i : Nat) : (b.put f v i).gsleep = b.gsleep := rfl
@[simp] theorem Block.put_clearDue (b : Block) (f : Fld) (v i : Nat) : (b.put f v i).clearDue = b.clearDue := rfl
@[simp] theorem Block.put_hintQ (b : Block) (f : Fld) (v i : Nat) : (b.put f v i).hintQ = b.hintQ := rfl
@[simp] theorem Block.put_tapInstr (b : Block) (f : Fld) (v i : Nat) : (b.put f v i).tapInstr = b.tapInstr := rfl
@[simp] theorem Block.put_tapOut (b : Block) (f : Fld) (v i : Nat) : (b.put f v i).tapOut = b.tapOut := rfl
@[simp] theorem Block.put_rgn (b : Block) (f : Fld) (v i : Nat) : (b.put f v i).rgn = b.rgn := rfl
@[simp] theorem Block.put_ph (b : Block) (f : Fld) (v i : Nat) : (b.put f v i).ph = b.ph := rfl
@[simp] theorem Block.put_wv (b : Block) (f : Fld) (v i : Nat) : (b.put f v i).wv = b.wv := rfl
@[simp] theorem Block.put_flt (b : Block) (f : Fld) (v i : Nat) : (b.put f v i).flt = b.flt := rfl
@[simp] theorem Block.put_eng (b : Block) (f : Fld) (v i : Nat) : (b.put f v i).eng = b.eng := rfl
@[simp] theorem Block.put_img (b : Block) (f : Fld) (v i : Nat) : (b.put f v i).img = b.img := rfl
@[simp] theorem Block.put_thm (b : Block) (f : Fld) (v i : Nat) : (b.put f v i).thm = b.thm := rfl
@[simp] theorem Block.put_clk (b : Block) (f : Fld) (v i : Nat) : (b.put f v i).clk = b.clk := rfl
@[simp] theorem Block.put_hint (b : Block) (f : Fld) (v i : Nat) : (b.put f v i).hint = b.hint := rfl
@[simp] theorem Block.put_hoop (b : Block) (f : Fld) (v i : Nat) : (b.put f v i).hoop = b.hoop := rfl
@[simp] theorem Block.put_red (b : Block) (f : Fld) (v i : Nat) : (b.put f v i).red = b.red := rfl
@[simp] theorem Block.put_adc (b : Block) (f : Fld) (v i : Nat) : (b.put f v i).adc = b.adc := rfl
@[simp] theorem Block.put_snap (b : Block) (f : Fld) (v i : Nat) : (b.put f v i).snap = b.snap := rfl
@[simp] theorem Block.put_trc (b : Block) (f : Fld) (v i : Nat) : (b.put f v i).trc = b.trc := rfl
@[simp] theorem Block.put_aonAt (b : Block) (f : Fld) (v i : Nat) : (b.put f v i).aonAt = b.aonAt := rfl

@[simp] theorem Block.modR_now (b : Block) (n : Nat) (f : Rgn → Rgn) : (b.modR n f).now = b.now := rfl
@[simp] theorem Block.modR_slo (b : Block) (n : Nat) (f : Rgn → Rgn) : (b.modR n f).slo = b.slo := rfl
@[simp] theorem Block.modR_freeCtr (b : Block) (n : Nat) (f : Rgn → Rgn) : (b.modR n f).freeCtr = b.freeCtr := rfl
@[simp] theorem Block.modR_regs (b : Block) (n : Nat) (f : Rgn → Rgn) : (b.modR n f).regs = b.regs := rfl
@[simp] theorem Block.modR_eff (b : Block) (n : Nat) (f : Rgn → Rgn) : (b.modR n f).eff = b.eff := rfl
@[simp] theorem Block.modR_rdata (b : Block) (n : Nat) (f : Rgn → Rgn) : (b.modR n f).rdata = b.rdata := rfl
@[simp] theorem Block.modR_tickHi (b : Block) (n : Nat) (f : Rgn → Rgn) : (b.modR n f).tickHi = b.tickHi := rfl
@[simp] theorem Block.modR_chipHi (b : Block) (n : Nat) (f : Rgn → Rgn) : (b.modR n f).chipHi = b.chipHi := rfl
@[simp] theorem Block.modR_energyHi (b : Block) (n : Nat) (f : Rgn → Rgn) : (b.modR n f).energyHi = b.energyHi := rfl
@[simp] theorem Block.modR_vinGood (b : Block) (n : Nat) (f : Rgn → Rgn) : (b.modR n f).vinGood = b.vinGood := rfl
@[simp] theorem Block.modR_aonUp (b : Block) (n : Nat) (f : Rgn → Rgn) : (b.modR n f).aonUp = b.aonUp := rfl
@[simp] theorem Block.modR_quiesceReq (b : Block) (n : Nat) (f : Rgn → Rgn) : (b.modR n f).quiesceReq = b.quiesceReq := rfl
@[simp] theorem Block.modR_quiesceAck (b : Block) (n : Nat) (f : Rgn → Rgn) : (b.modR n f).quiesceAck = b.quiesceAck := rfl
@[simp] theorem Block.modR_inReset (b : Block) (n : Nat) (f : Rgn → Rgn) : (b.modR n f).inReset = b.inReset := rfl
@[simp] theorem Block.modR_resetAt (b : Block) (n : Nat) (f : Rgn → Rgn) : (b.modR n f).resetAt = b.resetAt := rfl
@[simp] theorem Block.modR_extest (b : Block) (n : Nat) (f : Rgn → Rgn) : (b.modR n f).extest = b.extest := rfl
@[simp] theorem Block.modR_trustedPin (b : Block) (n : Nat) (f : Rgn → Rgn) : (b.modR n f).trustedPin = b.trustedPin := rfl
@[simp] theorem Block.modR_trstLow (b : Block) (n : Nat) (f : Rgn → Rgn) : (b.modR n f).trstLow = b.trstLow := rfl
@[simp] theorem Block.modR_gsleep (b : Block) (n : Nat) (f : Rgn → Rgn) : (b.modR n f).gsleep = b.gsleep := rfl
@[simp] theorem Block.modR_clearDue (b : Block) (n : Nat) (f : Rgn → Rgn) : (b.modR n f).clearDue = b.clearDue := rfl
@[simp] theorem Block.modR_hintQ (b : Block) (n : Nat) (f : Rgn → Rgn) : (b.modR n f).hintQ = b.hintQ := rfl
@[simp] theorem Block.modR_tapInstr (b : Block) (n : Nat) (f : Rgn → Rgn) : (b.modR n f).tapInstr = b.tapInstr := rfl
@[simp] theorem Block.modR_tapOut (b : Block) (n : Nat) (f : Rgn → Rgn) : (b.modR n f).tapOut = b.tapOut := rfl
@[simp] theorem Block.modR_ph (b : Block) (n : Nat) (f : Rgn → Rgn) : (b.modR n f).ph = b.ph := rfl
@[simp] theorem Block.modR_wv (b : Block) (n : Nat) (f : Rgn → Rgn) : (b.modR n f).wv = b.wv := rfl
@[simp] theorem Block.modR_flt (b : Block) (n : Nat) (f : Rgn → Rgn) : (b.modR n f).flt = b.flt := rfl
@[simp] theorem Block.modR_eng (b : Block) (n : Nat) (f : Rgn → Rgn) : (b.modR n f).eng = b.eng := rfl
@[simp] theorem Block.modR_img (b : Block) (n : Nat) (f : Rgn → Rgn) : (b.modR n f).img = b.img := rfl
@[simp] theorem Block.modR_thm (b : Block) (n : Nat) (f : Rgn → Rgn) : (b.modR n f).thm = b.thm := rfl
@[simp] theorem Block.modR_clk (b : Block) (n : Nat) (f : Rgn → Rgn) : (b.modR n f).clk = b.clk := rfl
@[simp] theorem Block.modR_hint (b : Block) (n : Nat) (f : Rgn → Rgn) : (b.modR n f).hint = b.hint := rfl
@[simp] theorem Block.modR_hoop (b : Block) (n : Nat) (f : Rgn → Rgn) : (b.modR n f).hoop = b.hoop := rfl
@[simp] theorem Block.modR_red (b : Block) (n : Nat) (f : Rgn → Rgn) : (b.modR n f).red = b.red := rfl
@[simp] theorem Block.modR_adc (b : Block) (n : Nat) (f : Rgn → Rgn) : (b.modR n f).adc = b.adc := rfl
@[simp] theorem Block.modR_snap (b : Block) (n : Nat) (f : Rgn → Rgn) : (b.modR n f).snap = b.snap := rfl
@[simp] theorem Block.modR_trc (b : Block) (n : Nat) (f : Rgn → Rgn) : (b.modR n f).trc = b.trc := rfl
@[simp] theorem Block.modR_aonAt (b : Block) (n : Nat) (f : Rgn → Rgn) : (b.modR n f).aonAt = b.aonAt := rfl

@[simp] theorem Block.modP_now (b : Block) (p : Nat) (f : Ph → Ph) : (b.modP p f).now = b.now := rfl
@[simp] theorem Block.modP_slo (b : Block) (p : Nat) (f : Ph → Ph) : (b.modP p f).slo = b.slo := rfl
@[simp] theorem Block.modP_freeCtr (b : Block) (p : Nat) (f : Ph → Ph) : (b.modP p f).freeCtr = b.freeCtr := rfl
@[simp] theorem Block.modP_regs (b : Block) (p : Nat) (f : Ph → Ph) : (b.modP p f).regs = b.regs := rfl
@[simp] theorem Block.modP_eff (b : Block) (p : Nat) (f : Ph → Ph) : (b.modP p f).eff = b.eff := rfl
@[simp] theorem Block.modP_rdata (b : Block) (p : Nat) (f : Ph → Ph) : (b.modP p f).rdata = b.rdata := rfl
@[simp] theorem Block.modP_tickHi (b : Block) (p : Nat) (f : Ph → Ph) : (b.modP p f).tickHi = b.tickHi := rfl
@[simp] theorem Block.modP_chipHi (b : Block) (p : Nat) (f : Ph → Ph) : (b.modP p f).chipHi = b.chipHi := rfl
@[simp] theorem Block.modP_energyHi (b : Block) (p : Nat) (f : Ph → Ph) : (b.modP p f).energyHi = b.energyHi := rfl
@[simp] theorem Block.modP_vinGood (b : Block) (p : Nat) (f : Ph → Ph) : (b.modP p f).vinGood = b.vinGood := rfl
@[simp] theorem Block.modP_aonUp (b : Block) (p : Nat) (f : Ph → Ph) : (b.modP p f).aonUp = b.aonUp := rfl
@[simp] theorem Block.modP_quiesceReq (b : Block) (p : Nat) (f : Ph → Ph) : (b.modP p f).quiesceReq = b.quiesceReq := rfl
@[simp] theorem Block.modP_quiesceAck (b : Block) (p : Nat) (f : Ph → Ph) : (b.modP p f).quiesceAck = b.quiesceAck := rfl
@[simp] theorem Block.modP_inReset (b : Block) (p : Nat) (f : Ph → Ph) : (b.modP p f).inReset = b.inReset := rfl
@[simp] theorem Block.modP_resetAt (b : Block) (p : Nat) (f : Ph → Ph) : (b.modP p f).resetAt = b.resetAt := rfl
@[simp] theorem Block.modP_extest (b : Block) (p : Nat) (f : Ph → Ph) : (b.modP p f).extest = b.extest := rfl
@[simp] theorem Block.modP_trustedPin (b : Block) (p : Nat) (f : Ph → Ph) : (b.modP p f).trustedPin = b.trustedPin := rfl
@[simp] theorem Block.modP_trstLow (b : Block) (p : Nat) (f : Ph → Ph) : (b.modP p f).trstLow = b.trstLow := rfl
@[simp] theorem Block.modP_gsleep (b : Block) (p : Nat) (f : Ph → Ph) : (b.modP p f).gsleep = b.gsleep := rfl
@[simp] theorem Block.modP_clearDue (b : Block) (p : Nat) (f : Ph → Ph) : (b.modP p f).clearDue = b.clearDue := rfl
@[simp] theorem Block.modP_hintQ (b : Block) (p : Nat) (f : Ph → Ph) : (b.modP p f).hintQ = b.hintQ := rfl
@[simp] theorem Block.modP_tapInstr (b : Block) (p : Nat) (f : Ph → Ph) : (b.modP p f).tapInstr = b.tapInstr := rfl
@[simp] theorem Block.modP_tapOut (b : Block) (p : Nat) (f : Ph → Ph) : (b.modP p f).tapOut = b.tapOut := rfl
@[simp] theorem Block.modP_rgn (b : Block) (p : Nat) (f : Ph → Ph) : (b.modP p f).rgn = b.rgn := rfl
@[simp] theorem Block.modP_wv (b : Block) (p : Nat) (f : Ph → Ph) : (b.modP p f).wv = b.wv := rfl
@[simp] theorem Block.modP_flt (b : Block) (p : Nat) (f : Ph → Ph) : (b.modP p f).flt = b.flt := rfl
@[simp] theorem Block.modP_eng (b : Block) (p : Nat) (f : Ph → Ph) : (b.modP p f).eng = b.eng := rfl
@[simp] theorem Block.modP_img (b : Block) (p : Nat) (f : Ph → Ph) : (b.modP p f).img = b.img := rfl
@[simp] theorem Block.modP_thm (b : Block) (p : Nat) (f : Ph → Ph) : (b.modP p f).thm = b.thm := rfl
@[simp] theorem Block.modP_clk (b : Block) (p : Nat) (f : Ph → Ph) : (b.modP p f).clk = b.clk := rfl
@[simp] theorem Block.modP_hint (b : Block) (p : Nat) (f : Ph → Ph) : (b.modP p f).hint = b.hint := rfl
@[simp] theorem Block.modP_hoop (b : Block) (p : Nat) (f : Ph → Ph) : (b.modP p f).hoop = b.hoop := rfl
@[simp] theorem Block.modP_red (b : Block) (p : Nat) (f : Ph → Ph) : (b.modP p f).red = b.red := rfl
@[simp] theorem Block.modP_adc (b : Block) (p : Nat) (f : Ph → Ph) : (b.modP p f).adc = b.adc := rfl
@[simp] theorem Block.modP_snap (b : Block) (p : Nat) (f : Ph → Ph) : (b.modP p f).snap = b.snap := rfl
@[simp] theorem Block.modP_trc (b : Block) (p : Nat) (f : Ph → Ph) : (b.modP p f).trc = b.trc := rfl
@[simp] theorem Block.modP_aonAt (b : Block) (p : Nat) (f : Ph → Ph) : (b.modP p f).aonAt = b.aonAt := rfl

@[simp] theorem Block.modW_now (b : Block) (w : Nat) (f : Wv → Wv) : (b.modW w f).now = b.now := rfl
@[simp] theorem Block.modW_slo (b : Block) (w : Nat) (f : Wv → Wv) : (b.modW w f).slo = b.slo := rfl
@[simp] theorem Block.modW_freeCtr (b : Block) (w : Nat) (f : Wv → Wv) : (b.modW w f).freeCtr = b.freeCtr := rfl
@[simp] theorem Block.modW_regs (b : Block) (w : Nat) (f : Wv → Wv) : (b.modW w f).regs = b.regs := rfl
@[simp] theorem Block.modW_eff (b : Block) (w : Nat) (f : Wv → Wv) : (b.modW w f).eff = b.eff := rfl
@[simp] theorem Block.modW_rdata (b : Block) (w : Nat) (f : Wv → Wv) : (b.modW w f).rdata = b.rdata := rfl
@[simp] theorem Block.modW_tickHi (b : Block) (w : Nat) (f : Wv → Wv) : (b.modW w f).tickHi = b.tickHi := rfl
@[simp] theorem Block.modW_chipHi (b : Block) (w : Nat) (f : Wv → Wv) : (b.modW w f).chipHi = b.chipHi := rfl
@[simp] theorem Block.modW_energyHi (b : Block) (w : Nat) (f : Wv → Wv) : (b.modW w f).energyHi = b.energyHi := rfl
@[simp] theorem Block.modW_vinGood (b : Block) (w : Nat) (f : Wv → Wv) : (b.modW w f).vinGood = b.vinGood := rfl
@[simp] theorem Block.modW_aonUp (b : Block) (w : Nat) (f : Wv → Wv) : (b.modW w f).aonUp = b.aonUp := rfl
@[simp] theorem Block.modW_quiesceReq (b : Block) (w : Nat) (f : Wv → Wv) : (b.modW w f).quiesceReq = b.quiesceReq := rfl
@[simp] theorem Block.modW_quiesceAck (b : Block) (w : Nat) (f : Wv → Wv) : (b.modW w f).quiesceAck = b.quiesceAck := rfl
@[simp] theorem Block.modW_inReset (b : Block) (w : Nat) (f : Wv → Wv) : (b.modW w f).inReset = b.inReset := rfl
@[simp] theorem Block.modW_resetAt (b : Block) (w : Nat) (f : Wv → Wv) : (b.modW w f).resetAt = b.resetAt := rfl
@[simp] theorem Block.modW_extest (b : Block) (w : Nat) (f : Wv → Wv) : (b.modW w f).extest = b.extest := rfl
@[simp] theorem Block.modW_trustedPin (b : Block) (w : Nat) (f : Wv → Wv) : (b.modW w f).trustedPin = b.trustedPin := rfl
@[simp] theorem Block.modW_trstLow (b : Block) (w : Nat) (f : Wv → Wv) : (b.modW w f).trstLow = b.trstLow := rfl
@[simp] theorem Block.modW_gsleep (b : Block) (w : Nat) (f : Wv → Wv) : (b.modW w f).gsleep = b.gsleep := rfl
@[simp] theorem Block.modW_clearDue (b : Block) (w : Nat) (f : Wv → Wv) : (b.modW w f).clearDue = b.clearDue := rfl
@[simp] theorem Block.modW_hintQ (b : Block) (w : Nat) (f : Wv → Wv) : (b.modW w f).hintQ = b.hintQ := rfl
@[simp] theorem Block.modW_tapInstr (b : Block) (w : Nat) (f : Wv → Wv) : (b.modW w f).tapInstr = b.tapInstr := rfl
@[simp] theorem Block.modW_tapOut (b : Block) (w : Nat) (f : Wv → Wv) : (b.modW w f).tapOut = b.tapOut := rfl
@[simp] theorem Block.modW_rgn (b : Block) (w : Nat) (f : Wv → Wv) : (b.modW w f).rgn = b.rgn := rfl
@[simp] theorem Block.modW_ph (b : Block) (w : Nat) (f : Wv → Wv) : (b.modW w f).ph = b.ph := rfl
@[simp] theorem Block.modW_flt (b : Block) (w : Nat) (f : Wv → Wv) : (b.modW w f).flt = b.flt := rfl
@[simp] theorem Block.modW_eng (b : Block) (w : Nat) (f : Wv → Wv) : (b.modW w f).eng = b.eng := rfl
@[simp] theorem Block.modW_img (b : Block) (w : Nat) (f : Wv → Wv) : (b.modW w f).img = b.img := rfl
@[simp] theorem Block.modW_thm (b : Block) (w : Nat) (f : Wv → Wv) : (b.modW w f).thm = b.thm := rfl
@[simp] theorem Block.modW_clk (b : Block) (w : Nat) (f : Wv → Wv) : (b.modW w f).clk = b.clk := rfl
@[simp] theorem Block.modW_hint (b : Block) (w : Nat) (f : Wv → Wv) : (b.modW w f).hint = b.hint := rfl
@[simp] theorem Block.modW_hoop (b : Block) (w : Nat) (f : Wv → Wv) : (b.modW w f).hoop = b.hoop := rfl
@[simp] theorem Block.modW_red (b : Block) (w : Nat) (f : Wv → Wv) : (b.modW w f).red = b.red := rfl
@[simp] theorem Block.modW_adc (b : Block) (w : Nat) (f : Wv → Wv) : (b.modW w f).adc = b.adc := rfl
@[simp] theorem Block.modW_snap (b : Block) (w : Nat) (f : Wv → Wv) : (b.modW w f).snap = b.snap := rfl
@[simp] theorem Block.modW_trc (b : Block) (w : Nat) (f : Wv → Wv) : (b.modW w f).trc = b.trc := rfl
@[simp] theorem Block.modW_aonAt (b : Block) (w : Nat) (f : Wv → Wv) : (b.modW w f).aonAt = b.aonAt := rfl

@[simp] theorem Block.modH_now (b : Block) (g : Nat) (f : Hint → Hint) : (b.modH g f).now = b.now := rfl
@[simp] theorem Block.modH_slo (b : Block) (g : Nat) (f : Hint → Hint) : (b.modH g f).slo = b.slo := rfl
@[simp] theorem Block.modH_freeCtr (b : Block) (g : Nat) (f : Hint → Hint) : (b.modH g f).freeCtr = b.freeCtr := rfl
@[simp] theorem Block.modH_regs (b : Block) (g : Nat) (f : Hint → Hint) : (b.modH g f).regs = b.regs := rfl
@[simp] theorem Block.modH_eff (b : Block) (g : Nat) (f : Hint → Hint) : (b.modH g f).eff = b.eff := rfl
@[simp] theorem Block.modH_rdata (b : Block) (g : Nat) (f : Hint → Hint) : (b.modH g f).rdata = b.rdata := rfl
@[simp] theorem Block.modH_tickHi (b : Block) (g : Nat) (f : Hint → Hint) : (b.modH g f).tickHi = b.tickHi := rfl
@[simp] theorem Block.modH_chipHi (b : Block) (g : Nat) (f : Hint → Hint) : (b.modH g f).chipHi = b.chipHi := rfl
@[simp] theorem Block.modH_energyHi (b : Block) (g : Nat) (f : Hint → Hint) : (b.modH g f).energyHi = b.energyHi := rfl
@[simp] theorem Block.modH_vinGood (b : Block) (g : Nat) (f : Hint → Hint) : (b.modH g f).vinGood = b.vinGood := rfl
@[simp] theorem Block.modH_aonUp (b : Block) (g : Nat) (f : Hint → Hint) : (b.modH g f).aonUp = b.aonUp := rfl
@[simp] theorem Block.modH_quiesceReq (b : Block) (g : Nat) (f : Hint → Hint) : (b.modH g f).quiesceReq = b.quiesceReq := rfl
@[simp] theorem Block.modH_quiesceAck (b : Block) (g : Nat) (f : Hint → Hint) : (b.modH g f).quiesceAck = b.quiesceAck := rfl
@[simp] theorem Block.modH_inReset (b : Block) (g : Nat) (f : Hint → Hint) : (b.modH g f).inReset = b.inReset := rfl
@[simp] theorem Block.modH_resetAt (b : Block) (g : Nat) (f : Hint → Hint) : (b.modH g f).resetAt = b.resetAt := rfl
@[simp] theorem Block.modH_extest (b : Block) (g : Nat) (f : Hint → Hint) : (b.modH g f).extest = b.extest := rfl
@[simp] theorem Block.modH_trustedPin (b : Block) (g : Nat) (f : Hint → Hint) : (b.modH g f).trustedPin = b.trustedPin := rfl
@[simp] theorem Block.modH_trstLow (b : Block) (g : Nat) (f : Hint → Hint) : (b.modH g f).trstLow = b.trstLow := rfl
@[simp] theorem Block.modH_gsleep (b : Block) (g : Nat) (f : Hint → Hint) : (b.modH g f).gsleep = b.gsleep := rfl
@[simp] theorem Block.modH_clearDue (b : Block) (g : Nat) (f : Hint → Hint) : (b.modH g f).clearDue = b.clearDue := rfl
@[simp] theorem Block.modH_hintQ (b : Block) (g : Nat) (f : Hint → Hint) : (b.modH g f).hintQ = b.hintQ := rfl
@[simp] theorem Block.modH_tapInstr (b : Block) (g : Nat) (f : Hint → Hint) : (b.modH g f).tapInstr = b.tapInstr := rfl
@[simp] theorem Block.modH_tapOut (b : Block) (g : Nat) (f : Hint → Hint) : (b.modH g f).tapOut = b.tapOut := rfl
@[simp] theorem Block.modH_rgn (b : Block) (g : Nat) (f : Hint → Hint) : (b.modH g f).rgn = b.rgn := rfl
@[simp] theorem Block.modH_ph (b : Block) (g : Nat) (f : Hint → Hint) : (b.modH g f).ph = b.ph := rfl
@[simp] theorem Block.modH_wv (b : Block) (g : Nat) (f : Hint → Hint) : (b.modH g f).wv = b.wv := rfl
@[simp] theorem Block.modH_flt (b : Block) (g : Nat) (f : Hint → Hint) : (b.modH g f).flt = b.flt := rfl
@[simp] theorem Block.modH_eng (b : Block) (g : Nat) (f : Hint → Hint) : (b.modH g f).eng = b.eng := rfl
@[simp] theorem Block.modH_img (b : Block) (g : Nat) (f : Hint → Hint) : (b.modH g f).img = b.img := rfl
@[simp] theorem Block.modH_thm (b : Block) (g : Nat) (f : Hint → Hint) : (b.modH g f).thm = b.thm := rfl
@[simp] theorem Block.modH_clk (b : Block) (g : Nat) (f : Hint → Hint) : (b.modH g f).clk = b.clk := rfl
@[simp] theorem Block.modH_hoop (b : Block) (g : Nat) (f : Hint → Hint) : (b.modH g f).hoop = b.hoop := rfl
@[simp] theorem Block.modH_red (b : Block) (g : Nat) (f : Hint → Hint) : (b.modH g f).red = b.red := rfl
@[simp] theorem Block.modH_adc (b : Block) (g : Nat) (f : Hint → Hint) : (b.modH g f).adc = b.adc := rfl
@[simp] theorem Block.modH_snap (b : Block) (g : Nat) (f : Hint → Hint) : (b.modH g f).snap = b.snap := rfl
@[simp] theorem Block.modH_trc (b : Block) (g : Nat) (f : Hint → Hint) : (b.modH g f).trc = b.trc := rfl
@[simp] theorem Block.modH_aonAt (b : Block) (g : Nat) (f : Hint → Hint) : (b.modH g f).aonAt = b.aonAt := rfl

@[simp] theorem Block.modEng_now (b : Block) (f : Eng → Eng) : (b.modEng f).now = b.now := rfl
@[simp] theorem Block.modEng_slo (b : Block) (f : Eng → Eng) : (b.modEng f).slo = b.slo := rfl
@[simp] theorem Block.modEng_freeCtr (b : Block) (f : Eng → Eng) : (b.modEng f).freeCtr = b.freeCtr := rfl
@[simp] theorem Block.modEng_regs (b : Block) (f : Eng → Eng) : (b.modEng f).regs = b.regs := rfl
@[simp] theorem Block.modEng_eff (b : Block) (f : Eng → Eng) : (b.modEng f).eff = b.eff := rfl
@[simp] theorem Block.modEng_rdata (b : Block) (f : Eng → Eng) : (b.modEng f).rdata = b.rdata := rfl
@[simp] theorem Block.modEng_tickHi (b : Block) (f : Eng → Eng) : (b.modEng f).tickHi = b.tickHi := rfl
@[simp] theorem Block.modEng_chipHi (b : Block) (f : Eng → Eng) : (b.modEng f).chipHi = b.chipHi := rfl
@[simp] theorem Block.modEng_energyHi (b : Block) (f : Eng → Eng) : (b.modEng f).energyHi = b.energyHi := rfl
@[simp] theorem Block.modEng_vinGood (b : Block) (f : Eng → Eng) : (b.modEng f).vinGood = b.vinGood := rfl
@[simp] theorem Block.modEng_aonUp (b : Block) (f : Eng → Eng) : (b.modEng f).aonUp = b.aonUp := rfl
@[simp] theorem Block.modEng_quiesceReq (b : Block) (f : Eng → Eng) : (b.modEng f).quiesceReq = b.quiesceReq := rfl
@[simp] theorem Block.modEng_quiesceAck (b : Block) (f : Eng → Eng) : (b.modEng f).quiesceAck = b.quiesceAck := rfl
@[simp] theorem Block.modEng_inReset (b : Block) (f : Eng → Eng) : (b.modEng f).inReset = b.inReset := rfl
@[simp] theorem Block.modEng_resetAt (b : Block) (f : Eng → Eng) : (b.modEng f).resetAt = b.resetAt := rfl
@[simp] theorem Block.modEng_extest (b : Block) (f : Eng → Eng) : (b.modEng f).extest = b.extest := rfl
@[simp] theorem Block.modEng_trustedPin (b : Block) (f : Eng → Eng) : (b.modEng f).trustedPin = b.trustedPin := rfl
@[simp] theorem Block.modEng_trstLow (b : Block) (f : Eng → Eng) : (b.modEng f).trstLow = b.trstLow := rfl
@[simp] theorem Block.modEng_gsleep (b : Block) (f : Eng → Eng) : (b.modEng f).gsleep = b.gsleep := rfl
@[simp] theorem Block.modEng_clearDue (b : Block) (f : Eng → Eng) : (b.modEng f).clearDue = b.clearDue := rfl
@[simp] theorem Block.modEng_hintQ (b : Block) (f : Eng → Eng) : (b.modEng f).hintQ = b.hintQ := rfl
@[simp] theorem Block.modEng_tapInstr (b : Block) (f : Eng → Eng) : (b.modEng f).tapInstr = b.tapInstr := rfl
@[simp] theorem Block.modEng_tapOut (b : Block) (f : Eng → Eng) : (b.modEng f).tapOut = b.tapOut := rfl
@[simp] theorem Block.modEng_rgn (b : Block) (f : Eng → Eng) : (b.modEng f).rgn = b.rgn := rfl
@[simp] theorem Block.modEng_ph (b : Block) (f : Eng → Eng) : (b.modEng f).ph = b.ph := rfl
@[simp] theorem Block.modEng_wv (b : Block) (f : Eng → Eng) : (b.modEng f).wv = b.wv := rfl
@[simp] theorem Block.modEng_flt (b : Block) (f : Eng → Eng) : (b.modEng f).flt = b.flt := rfl
@[simp] theorem Block.modEng_img (b : Block) (f : Eng → Eng) : (b.modEng f).img = b.img := rfl
@[simp] theorem Block.modEng_thm (b : Block) (f : Eng → Eng) : (b.modEng f).thm = b.thm := rfl
@[simp] theorem Block.modEng_clk (b : Block) (f : Eng → Eng) : (b.modEng f).clk = b.clk := rfl
@[simp] theorem Block.modEng_hint (b : Block) (f : Eng → Eng) : (b.modEng f).hint = b.hint := rfl
@[simp] theorem Block.modEng_hoop (b : Block) (f : Eng → Eng) : (b.modEng f).hoop = b.hoop := rfl
@[simp] theorem Block.modEng_red (b : Block) (f : Eng → Eng) : (b.modEng f).red = b.red := rfl
@[simp] theorem Block.modEng_adc (b : Block) (f : Eng → Eng) : (b.modEng f).adc = b.adc := rfl
@[simp] theorem Block.modEng_snap (b : Block) (f : Eng → Eng) : (b.modEng f).snap = b.snap := rfl
@[simp] theorem Block.modEng_trc (b : Block) (f : Eng → Eng) : (b.modEng f).trc = b.trc := rfl
@[simp] theorem Block.modEng_aonAt (b : Block) (f : Eng → Eng) : (b.modEng f).aonAt = b.aonAt := rfl

@[simp] theorem Block.modThm_now (b : Block) (f : Thm → Thm) : (b.modThm f).now = b.now := rfl
@[simp] theorem Block.modThm_slo (b : Block) (f : Thm → Thm) : (b.modThm f).slo = b.slo := rfl
@[simp] theorem Block.modThm_freeCtr (b : Block) (f : Thm → Thm) : (b.modThm f).freeCtr = b.freeCtr := rfl
@[simp] theorem Block.modThm_regs (b : Block) (f : Thm → Thm) : (b.modThm f).regs = b.regs := rfl
@[simp] theorem Block.modThm_eff (b : Block) (f : Thm → Thm) : (b.modThm f).eff = b.eff := rfl
@[simp] theorem Block.modThm_rdata (b : Block) (f : Thm → Thm) : (b.modThm f).rdata = b.rdata := rfl
@[simp] theorem Block.modThm_tickHi (b : Block) (f : Thm → Thm) : (b.modThm f).tickHi = b.tickHi := rfl
@[simp] theorem Block.modThm_chipHi (b : Block) (f : Thm → Thm) : (b.modThm f).chipHi = b.chipHi := rfl
@[simp] theorem Block.modThm_energyHi (b : Block) (f : Thm → Thm) : (b.modThm f).energyHi = b.energyHi := rfl
@[simp] theorem Block.modThm_vinGood (b : Block) (f : Thm → Thm) : (b.modThm f).vinGood = b.vinGood := rfl
@[simp] theorem Block.modThm_aonUp (b : Block) (f : Thm → Thm) : (b.modThm f).aonUp = b.aonUp := rfl
@[simp] theorem Block.modThm_quiesceReq (b : Block) (f : Thm → Thm) : (b.modThm f).quiesceReq = b.quiesceReq := rfl
@[simp] theorem Block.modThm_quiesceAck (b : Block) (f : Thm → Thm) : (b.modThm f).quiesceAck = b.quiesceAck := rfl
@[simp] theorem Block.modThm_inReset (b : Block) (f : Thm → Thm) : (b.modThm f).inReset = b.inReset := rfl
@[simp] theorem Block.modThm_resetAt (b : Block) (f : Thm → Thm) : (b.modThm f).resetAt = b.resetAt := rfl
@[simp] theorem Block.modThm_extest (b : Block) (f : Thm → Thm) : (b.modThm f).extest = b.extest := rfl
@[simp] theorem Block.modThm_trustedPin (b : Block) (f : Thm → Thm) : (b.modThm f).trustedPin = b.trustedPin := rfl
@[simp] theorem Block.modThm_trstLow (b : Block) (f : Thm → Thm) : (b.modThm f).trstLow = b.trstLow := rfl
@[simp] theorem Block.modThm_gsleep (b : Block) (f : Thm → Thm) : (b.modThm f).gsleep = b.gsleep := rfl
@[simp] theorem Block.modThm_clearDue (b : Block) (f : Thm → Thm) : (b.modThm f).clearDue = b.clearDue := rfl
@[simp] theorem Block.modThm_hintQ (b : Block) (f : Thm → Thm) : (b.modThm f).hintQ = b.hintQ := rfl
@[simp] theorem Block.modThm_tapInstr (b : Block) (f : Thm → Thm) : (b.modThm f).tapInstr = b.tapInstr := rfl
@[simp] theorem Block.modThm_tapOut (b : Block) (f : Thm → Thm) : (b.modThm f).tapOut = b.tapOut := rfl
@[simp] theorem Block.modThm_rgn (b : Block) (f : Thm → Thm) : (b.modThm f).rgn = b.rgn := rfl
@[simp] theorem Block.modThm_ph (b : Block) (f : Thm → Thm) : (b.modThm f).ph = b.ph := rfl
@[simp] theorem Block.modThm_wv (b : Block) (f : Thm → Thm) : (b.modThm f).wv = b.wv := rfl
@[simp] theorem Block.modThm_flt (b : Block) (f : Thm → Thm) : (b.modThm f).flt = b.flt := rfl
@[simp] theorem Block.modThm_eng (b : Block) (f : Thm → Thm) : (b.modThm f).eng = b.eng := rfl
@[simp] theorem Block.modThm_img (b : Block) (f : Thm → Thm) : (b.modThm f).img = b.img := rfl
@[simp] theorem Block.modThm_clk (b : Block) (f : Thm → Thm) : (b.modThm f).clk = b.clk := rfl
@[simp] theorem Block.modThm_hint (b : Block) (f : Thm → Thm) : (b.modThm f).hint = b.hint := rfl
@[simp] theorem Block.modThm_hoop (b : Block) (f : Thm → Thm) : (b.modThm f).hoop = b.hoop := rfl
@[simp] theorem Block.modThm_red (b : Block) (f : Thm → Thm) : (b.modThm f).red = b.red := rfl
@[simp] theorem Block.modThm_adc (b : Block) (f : Thm → Thm) : (b.modThm f).adc = b.adc := rfl
@[simp] theorem Block.modThm_snap (b : Block) (f : Thm → Thm) : (b.modThm f).snap = b.snap := rfl
@[simp] theorem Block.modThm_trc (b : Block) (f : Thm → Thm) : (b.modThm f).trc = b.trc := rfl
@[simp] theorem Block.modThm_aonAt (b : Block) (f : Thm → Thm) : (b.modThm f).aonAt = b.aonAt := rfl

@[simp] theorem Block.modClk_now (b : Block) (f : Clk → Clk) : (b.modClk f).now = b.now := rfl
@[simp] theorem Block.modClk_slo (b : Block) (f : Clk → Clk) : (b.modClk f).slo = b.slo := rfl
@[simp] theorem Block.modClk_freeCtr (b : Block) (f : Clk → Clk) : (b.modClk f).freeCtr = b.freeCtr := rfl
@[simp] theorem Block.modClk_regs (b : Block) (f : Clk → Clk) : (b.modClk f).regs = b.regs := rfl
@[simp] theorem Block.modClk_eff (b : Block) (f : Clk → Clk) : (b.modClk f).eff = b.eff := rfl
@[simp] theorem Block.modClk_rdata (b : Block) (f : Clk → Clk) : (b.modClk f).rdata = b.rdata := rfl
@[simp] theorem Block.modClk_tickHi (b : Block) (f : Clk → Clk) : (b.modClk f).tickHi = b.tickHi := rfl
@[simp] theorem Block.modClk_chipHi (b : Block) (f : Clk → Clk) : (b.modClk f).chipHi = b.chipHi := rfl
@[simp] theorem Block.modClk_energyHi (b : Block) (f : Clk → Clk) : (b.modClk f).energyHi = b.energyHi := rfl
@[simp] theorem Block.modClk_vinGood (b : Block) (f : Clk → Clk) : (b.modClk f).vinGood = b.vinGood := rfl
@[simp] theorem Block.modClk_aonUp (b : Block) (f : Clk → Clk) : (b.modClk f).aonUp = b.aonUp := rfl
@[simp] theorem Block.modClk_quiesceReq (b : Block) (f : Clk → Clk) : (b.modClk f).quiesceReq = b.quiesceReq := rfl
@[simp] theorem Block.modClk_quiesceAck (b : Block) (f : Clk → Clk) : (b.modClk f).quiesceAck = b.quiesceAck := rfl
@[simp] theorem Block.modClk_inReset (b : Block) (f : Clk → Clk) : (b.modClk f).inReset = b.inReset := rfl
@[simp] theorem Block.modClk_resetAt (b : Block) (f : Clk → Clk) : (b.modClk f).resetAt = b.resetAt := rfl
@[simp] theorem Block.modClk_extest (b : Block) (f : Clk → Clk) : (b.modClk f).extest = b.extest := rfl
@[simp] theorem Block.modClk_trustedPin (b : Block) (f : Clk → Clk) : (b.modClk f).trustedPin = b.trustedPin := rfl
@[simp] theorem Block.modClk_trstLow (b : Block) (f : Clk → Clk) : (b.modClk f).trstLow = b.trstLow := rfl
@[simp] theorem Block.modClk_gsleep (b : Block) (f : Clk → Clk) : (b.modClk f).gsleep = b.gsleep := rfl
@[simp] theorem Block.modClk_clearDue (b : Block) (f : Clk → Clk) : (b.modClk f).clearDue = b.clearDue := rfl
@[simp] theorem Block.modClk_hintQ (b : Block) (f : Clk → Clk) : (b.modClk f).hintQ = b.hintQ := rfl
@[simp] theorem Block.modClk_tapInstr (b : Block) (f : Clk → Clk) : (b.modClk f).tapInstr = b.tapInstr := rfl
@[simp] theorem Block.modClk_tapOut (b : Block) (f : Clk → Clk) : (b.modClk f).tapOut = b.tapOut := rfl
@[simp] theorem Block.modClk_rgn (b : Block) (f : Clk → Clk) : (b.modClk f).rgn = b.rgn := rfl
@[simp] theorem Block.modClk_ph (b : Block) (f : Clk → Clk) : (b.modClk f).ph = b.ph := rfl
@[simp] theorem Block.modClk_wv (b : Block) (f : Clk → Clk) : (b.modClk f).wv = b.wv := rfl
@[simp] theorem Block.modClk_flt (b : Block) (f : Clk → Clk) : (b.modClk f).flt = b.flt := rfl
@[simp] theorem Block.modClk_eng (b : Block) (f : Clk → Clk) : (b.modClk f).eng = b.eng := rfl
@[simp] theorem Block.modClk_img (b : Block) (f : Clk → Clk) : (b.modClk f).img = b.img := rfl
@[simp] theorem Block.modClk_thm (b : Block) (f : Clk → Clk) : (b.modClk f).thm = b.thm := rfl
@[simp] theorem Block.modClk_hint (b : Block) (f : Clk → Clk) : (b.modClk f).hint = b.hint := rfl
@[simp] theorem Block.modClk_hoop (b : Block) (f : Clk → Clk) : (b.modClk f).hoop = b.hoop := rfl
@[simp] theorem Block.modClk_red (b : Block) (f : Clk → Clk) : (b.modClk f).red = b.red := rfl
@[simp] theorem Block.modClk_adc (b : Block) (f : Clk → Clk) : (b.modClk f).adc = b.adc := rfl
@[simp] theorem Block.modClk_snap (b : Block) (f : Clk → Clk) : (b.modClk f).snap = b.snap := rfl
@[simp] theorem Block.modClk_trc (b : Block) (f : Clk → Clk) : (b.modClk f).trc = b.trc := rfl
@[simp] theorem Block.modClk_aonAt (b : Block) (f : Clk → Clk) : (b.modClk f).aonAt = b.aonAt := rfl

@[simp] theorem Block.modHoop_now (b : Block) (f : Hoop → Hoop) : (b.modHoop f).now = b.now := rfl
@[simp] theorem Block.modHoop_slo (b : Block) (f : Hoop → Hoop) : (b.modHoop f).slo = b.slo := rfl
@[simp] theorem Block.modHoop_freeCtr (b : Block) (f : Hoop → Hoop) : (b.modHoop f).freeCtr = b.freeCtr := rfl
@[simp] theorem Block.modHoop_regs (b : Block) (f : Hoop → Hoop) : (b.modHoop f).regs = b.regs := rfl
@[simp] theorem Block.modHoop_eff (b : Block) (f : Hoop → Hoop) : (b.modHoop f).eff = b.eff := rfl
@[simp] theorem Block.modHoop_rdata (b : Block) (f : Hoop → Hoop) : (b.modHoop f).rdata = b.rdata := rfl
@[simp] theorem Block.modHoop_tickHi (b : Block) (f : Hoop → Hoop) : (b.modHoop f).tickHi = b.tickHi := rfl
@[simp] theorem Block.modHoop_chipHi (b : Block) (f : Hoop → Hoop) : (b.modHoop f).chipHi = b.chipHi := rfl
@[simp] theorem Block.modHoop_energyHi (b : Block) (f : Hoop → Hoop) : (b.modHoop f).energyHi = b.energyHi := rfl
@[simp] theorem Block.modHoop_vinGood (b : Block) (f : Hoop → Hoop) : (b.modHoop f).vinGood = b.vinGood := rfl
@[simp] theorem Block.modHoop_aonUp (b : Block) (f : Hoop → Hoop) : (b.modHoop f).aonUp = b.aonUp := rfl
@[simp] theorem Block.modHoop_quiesceReq (b : Block) (f : Hoop → Hoop) : (b.modHoop f).quiesceReq = b.quiesceReq := rfl
@[simp] theorem Block.modHoop_quiesceAck (b : Block) (f : Hoop → Hoop) : (b.modHoop f).quiesceAck = b.quiesceAck := rfl
@[simp] theorem Block.modHoop_inReset (b : Block) (f : Hoop → Hoop) : (b.modHoop f).inReset = b.inReset := rfl
@[simp] theorem Block.modHoop_resetAt (b : Block) (f : Hoop → Hoop) : (b.modHoop f).resetAt = b.resetAt := rfl
@[simp] theorem Block.modHoop_extest (b : Block) (f : Hoop → Hoop) : (b.modHoop f).extest = b.extest := rfl
@[simp] theorem Block.modHoop_trustedPin (b : Block) (f : Hoop → Hoop) : (b.modHoop f).trustedPin = b.trustedPin := rfl
@[simp] theorem Block.modHoop_trstLow (b : Block) (f : Hoop → Hoop) : (b.modHoop f).trstLow = b.trstLow := rfl
@[simp] theorem Block.modHoop_gsleep (b : Block) (f : Hoop → Hoop) : (b.modHoop f).gsleep = b.gsleep := rfl
@[simp] theorem Block.modHoop_clearDue (b : Block) (f : Hoop → Hoop) : (b.modHoop f).clearDue = b.clearDue := rfl
@[simp] theorem Block.modHoop_hintQ (b : Block) (f : Hoop → Hoop) : (b.modHoop f).hintQ = b.hintQ := rfl
@[simp] theorem Block.modHoop_tapInstr (b : Block) (f : Hoop → Hoop) : (b.modHoop f).tapInstr = b.tapInstr := rfl
@[simp] theorem Block.modHoop_tapOut (b : Block) (f : Hoop → Hoop) : (b.modHoop f).tapOut = b.tapOut := rfl
@[simp] theorem Block.modHoop_rgn (b : Block) (f : Hoop → Hoop) : (b.modHoop f).rgn = b.rgn := rfl
@[simp] theorem Block.modHoop_ph (b : Block) (f : Hoop → Hoop) : (b.modHoop f).ph = b.ph := rfl
@[simp] theorem Block.modHoop_wv (b : Block) (f : Hoop → Hoop) : (b.modHoop f).wv = b.wv := rfl
@[simp] theorem Block.modHoop_flt (b : Block) (f : Hoop → Hoop) : (b.modHoop f).flt = b.flt := rfl
@[simp] theorem Block.modHoop_eng (b : Block) (f : Hoop → Hoop) : (b.modHoop f).eng = b.eng := rfl
@[simp] theorem Block.modHoop_img (b : Block) (f : Hoop → Hoop) : (b.modHoop f).img = b.img := rfl
@[simp] theorem Block.modHoop_thm (b : Block) (f : Hoop → Hoop) : (b.modHoop f).thm = b.thm := rfl
@[simp] theorem Block.modHoop_clk (b : Block) (f : Hoop → Hoop) : (b.modHoop f).clk = b.clk := rfl
@[simp] theorem Block.modHoop_hint (b : Block) (f : Hoop → Hoop) : (b.modHoop f).hint = b.hint := rfl
@[simp] theorem Block.modHoop_red (b : Block) (f : Hoop → Hoop) : (b.modHoop f).red = b.red := rfl
@[simp] theorem Block.modHoop_adc (b : Block) (f : Hoop → Hoop) : (b.modHoop f).adc = b.adc := rfl
@[simp] theorem Block.modHoop_snap (b : Block) (f : Hoop → Hoop) : (b.modHoop f).snap = b.snap := rfl
@[simp] theorem Block.modHoop_trc (b : Block) (f : Hoop → Hoop) : (b.modHoop f).trc = b.trc := rfl
@[simp] theorem Block.modHoop_aonAt (b : Block) (f : Hoop → Hoop) : (b.modHoop f).aonAt = b.aonAt := rfl

@[simp] theorem Block.modRed_now (b : Block) (f : Red → Red) : (b.modRed f).now = b.now := rfl
@[simp] theorem Block.modRed_slo (b : Block) (f : Red → Red) : (b.modRed f).slo = b.slo := rfl
@[simp] theorem Block.modRed_freeCtr (b : Block) (f : Red → Red) : (b.modRed f).freeCtr = b.freeCtr := rfl
@[simp] theorem Block.modRed_regs (b : Block) (f : Red → Red) : (b.modRed f).regs = b.regs := rfl
@[simp] theorem Block.modRed_eff (b : Block) (f : Red → Red) : (b.modRed f).eff = b.eff := rfl
@[simp] theorem Block.modRed_rdata (b : Block) (f : Red → Red) : (b.modRed f).rdata = b.rdata := rfl
@[simp] theorem Block.modRed_tickHi (b : Block) (f : Red → Red) : (b.modRed f).tickHi = b.tickHi := rfl
@[simp] theorem Block.modRed_chipHi (b : Block) (f : Red → Red) : (b.modRed f).chipHi = b.chipHi := rfl
@[simp] theorem Block.modRed_energyHi (b : Block) (f : Red → Red) : (b.modRed f).energyHi = b.energyHi := rfl
@[simp] theorem Block.modRed_vinGood (b : Block) (f : Red → Red) : (b.modRed f).vinGood = b.vinGood := rfl
@[simp] theorem Block.modRed_aonUp (b : Block) (f : Red → Red) : (b.modRed f).aonUp = b.aonUp := rfl
@[simp] theorem Block.modRed_quiesceReq (b : Block) (f : Red → Red) : (b.modRed f).quiesceReq = b.quiesceReq := rfl
@[simp] theorem Block.modRed_quiesceAck (b : Block) (f : Red → Red) : (b.modRed f).quiesceAck = b.quiesceAck := rfl
@[simp] theorem Block.modRed_inReset (b : Block) (f : Red → Red) : (b.modRed f).inReset = b.inReset := rfl
@[simp] theorem Block.modRed_resetAt (b : Block) (f : Red → Red) : (b.modRed f).resetAt = b.resetAt := rfl
@[simp] theorem Block.modRed_extest (b : Block) (f : Red → Red) : (b.modRed f).extest = b.extest := rfl
@[simp] theorem Block.modRed_trustedPin (b : Block) (f : Red → Red) : (b.modRed f).trustedPin = b.trustedPin := rfl
@[simp] theorem Block.modRed_trstLow (b : Block) (f : Red → Red) : (b.modRed f).trstLow = b.trstLow := rfl
@[simp] theorem Block.modRed_gsleep (b : Block) (f : Red → Red) : (b.modRed f).gsleep = b.gsleep := rfl
@[simp] theorem Block.modRed_clearDue (b : Block) (f : Red → Red) : (b.modRed f).clearDue = b.clearDue := rfl
@[simp] theorem Block.modRed_hintQ (b : Block) (f : Red → Red) : (b.modRed f).hintQ = b.hintQ := rfl
@[simp] theorem Block.modRed_tapInstr (b : Block) (f : Red → Red) : (b.modRed f).tapInstr = b.tapInstr := rfl
@[simp] theorem Block.modRed_tapOut (b : Block) (f : Red → Red) : (b.modRed f).tapOut = b.tapOut := rfl
@[simp] theorem Block.modRed_rgn (b : Block) (f : Red → Red) : (b.modRed f).rgn = b.rgn := rfl
@[simp] theorem Block.modRed_ph (b : Block) (f : Red → Red) : (b.modRed f).ph = b.ph := rfl
@[simp] theorem Block.modRed_wv (b : Block) (f : Red → Red) : (b.modRed f).wv = b.wv := rfl
@[simp] theorem Block.modRed_flt (b : Block) (f : Red → Red) : (b.modRed f).flt = b.flt := rfl
@[simp] theorem Block.modRed_eng (b : Block) (f : Red → Red) : (b.modRed f).eng = b.eng := rfl
@[simp] theorem Block.modRed_img (b : Block) (f : Red → Red) : (b.modRed f).img = b.img := rfl
@[simp] theorem Block.modRed_thm (b : Block) (f : Red → Red) : (b.modRed f).thm = b.thm := rfl
@[simp] theorem Block.modRed_clk (b : Block) (f : Red → Red) : (b.modRed f).clk = b.clk := rfl
@[simp] theorem Block.modRed_hint (b : Block) (f : Red → Red) : (b.modRed f).hint = b.hint := rfl
@[simp] theorem Block.modRed_hoop (b : Block) (f : Red → Red) : (b.modRed f).hoop = b.hoop := rfl
@[simp] theorem Block.modRed_adc (b : Block) (f : Red → Red) : (b.modRed f).adc = b.adc := rfl
@[simp] theorem Block.modRed_snap (b : Block) (f : Red → Red) : (b.modRed f).snap = b.snap := rfl
@[simp] theorem Block.modRed_trc (b : Block) (f : Red → Red) : (b.modRed f).trc = b.trc := rfl
@[simp] theorem Block.modRed_aonAt (b : Block) (f : Red → Red) : (b.modRed f).aonAt = b.aonAt := rfl

@[simp] theorem Block.modTrc_now (b : Block) (f : Trc → Trc) : (b.modTrc f).now = b.now := rfl
@[simp] theorem Block.modTrc_slo (b : Block) (f : Trc → Trc) : (b.modTrc f).slo = b.slo := rfl
@[simp] theorem Block.modTrc_freeCtr (b : Block) (f : Trc → Trc) : (b.modTrc f).freeCtr = b.freeCtr := rfl
@[simp] theorem Block.modTrc_regs (b : Block) (f : Trc → Trc) : (b.modTrc f).regs = b.regs := rfl
@[simp] theorem Block.modTrc_eff (b : Block) (f : Trc → Trc) : (b.modTrc f).eff = b.eff := rfl
@[simp] theorem Block.modTrc_rdata (b : Block) (f : Trc → Trc) : (b.modTrc f).rdata = b.rdata := rfl
@[simp] theorem Block.modTrc_tickHi (b : Block) (f : Trc → Trc) : (b.modTrc f).tickHi = b.tickHi := rfl
@[simp] theorem Block.modTrc_chipHi (b : Block) (f : Trc → Trc) : (b.modTrc f).chipHi = b.chipHi := rfl
@[simp] theorem Block.modTrc_energyHi (b : Block) (f : Trc → Trc) : (b.modTrc f).energyHi = b.energyHi := rfl
@[simp] theorem Block.modTrc_vinGood (b : Block) (f : Trc → Trc) : (b.modTrc f).vinGood = b.vinGood := rfl
@[simp] theorem Block.modTrc_aonUp (b : Block) (f : Trc → Trc) : (b.modTrc f).aonUp = b.aonUp := rfl
@[simp] theorem Block.modTrc_quiesceReq (b : Block) (f : Trc → Trc) : (b.modTrc f).quiesceReq = b.quiesceReq := rfl
@[simp] theorem Block.modTrc_quiesceAck (b : Block) (f : Trc → Trc) : (b.modTrc f).quiesceAck = b.quiesceAck := rfl
@[simp] theorem Block.modTrc_inReset (b : Block) (f : Trc → Trc) : (b.modTrc f).inReset = b.inReset := rfl
@[simp] theorem Block.modTrc_resetAt (b : Block) (f : Trc → Trc) : (b.modTrc f).resetAt = b.resetAt := rfl
@[simp] theorem Block.modTrc_extest (b : Block) (f : Trc → Trc) : (b.modTrc f).extest = b.extest := rfl
@[simp] theorem Block.modTrc_trustedPin (b : Block) (f : Trc → Trc) : (b.modTrc f).trustedPin = b.trustedPin := rfl
@[simp] theorem Block.modTrc_trstLow (b : Block) (f : Trc → Trc) : (b.modTrc f).trstLow = b.trstLow := rfl
@[simp] theorem Block.modTrc_gsleep (b : Block) (f : Trc → Trc) : (b.modTrc f).gsleep = b.gsleep := rfl
@[simp] theorem Block.modTrc_clearDue (b : Block) (f : Trc → Trc) : (b.modTrc f).clearDue = b.clearDue := rfl
@[simp] theorem Block.modTrc_hintQ (b : Block) (f : Trc → Trc) : (b.modTrc f).hintQ = b.hintQ := rfl
@[simp] theorem Block.modTrc_tapInstr (b : Block) (f : Trc → Trc) : (b.modTrc f).tapInstr = b.tapInstr := rfl
@[simp] theorem Block.modTrc_tapOut (b : Block) (f : Trc → Trc) : (b.modTrc f).tapOut = b.tapOut := rfl
@[simp] theorem Block.modTrc_rgn (b : Block) (f : Trc → Trc) : (b.modTrc f).rgn = b.rgn := rfl
@[simp] theorem Block.modTrc_ph (b : Block) (f : Trc → Trc) : (b.modTrc f).ph = b.ph := rfl
@[simp] theorem Block.modTrc_wv (b : Block) (f : Trc → Trc) : (b.modTrc f).wv = b.wv := rfl
@[simp] theorem Block.modTrc_flt (b : Block) (f : Trc → Trc) : (b.modTrc f).flt = b.flt := rfl
@[simp] theorem Block.modTrc_eng (b : Block) (f : Trc → Trc) : (b.modTrc f).eng = b.eng := rfl
@[simp] theorem Block.modTrc_img (b : Block) (f : Trc → Trc) : (b.modTrc f).img = b.img := rfl
@[simp] theorem Block.modTrc_thm (b : Block) (f : Trc → Trc) : (b.modTrc f).thm = b.thm := rfl
@[simp] theorem Block.modTrc_clk (b : Block) (f : Trc → Trc) : (b.modTrc f).clk = b.clk := rfl
@[simp] theorem Block.modTrc_hint (b : Block) (f : Trc → Trc) : (b.modTrc f).hint = b.hint := rfl
@[simp] theorem Block.modTrc_hoop (b : Block) (f : Trc → Trc) : (b.modTrc f).hoop = b.hoop := rfl
@[simp] theorem Block.modTrc_red (b : Block) (f : Trc → Trc) : (b.modTrc f).red = b.red := rfl
@[simp] theorem Block.modTrc_adc (b : Block) (f : Trc → Trc) : (b.modTrc f).adc = b.adc := rfl
@[simp] theorem Block.modTrc_snap (b : Block) (f : Trc → Trc) : (b.modTrc f).snap = b.snap := rfl
@[simp] theorem Block.modTrc_aonAt (b : Block) (f : Trc → Trc) : (b.modTrc f).aonAt = b.aonAt := rfl

@[simp] theorem Block.modImg_now (b : Block) (f : Img → Img) : (b.modImg f).now = b.now := rfl
@[simp] theorem Block.modImg_slo (b : Block) (f : Img → Img) : (b.modImg f).slo = b.slo := rfl
@[simp] theorem Block.modImg_freeCtr (b : Block) (f : Img → Img) : (b.modImg f).freeCtr = b.freeCtr := rfl
@[simp] theorem Block.modImg_regs (b : Block) (f : Img → Img) : (b.modImg f).regs = b.regs := rfl
@[simp] theorem Block.modImg_eff (b : Block) (f : Img → Img) : (b.modImg f).eff = b.eff := rfl
@[simp] theorem Block.modImg_rdata (b : Block) (f : Img → Img) : (b.modImg f).rdata = b.rdata := rfl
@[simp] theorem Block.modImg_tickHi (b : Block) (f : Img → Img) : (b.modImg f).tickHi = b.tickHi := rfl
@[simp] theorem Block.modImg_chipHi (b : Block) (f : Img → Img) : (b.modImg f).chipHi = b.chipHi := rfl
@[simp] theorem Block.modImg_energyHi (b : Block) (f : Img → Img) : (b.modImg f).energyHi = b.energyHi := rfl
@[simp] theorem Block.modImg_vinGood (b : Block) (f : Img → Img) : (b.modImg f).vinGood = b.vinGood := rfl
@[simp] theorem Block.modImg_aonUp (b : Block) (f : Img → Img) : (b.modImg f).aonUp = b.aonUp := rfl
@[simp] theorem Block.modImg_quiesceReq (b : Block) (f : Img → Img) : (b.modImg f).quiesceReq = b.quiesceReq := rfl
@[simp] theorem Block.modImg_quiesceAck (b : Block) (f : Img → Img) : (b.modImg f).quiesceAck = b.quiesceAck := rfl
@[simp] theorem Block.modImg_inReset (b : Block) (f : Img → Img) : (b.modImg f).inReset = b.inReset := rfl
@[simp] theorem Block.modImg_resetAt (b : Block) (f : Img → Img) : (b.modImg f).resetAt = b.resetAt := rfl
@[simp] theorem Block.modImg_extest (b : Block) (f : Img → Img) : (b.modImg f).extest = b.extest := rfl
@[simp] theorem Block.modImg_trustedPin (b : Block) (f : Img → Img) : (b.modImg f).trustedPin = b.trustedPin := rfl
@[simp] theorem Block.modImg_trstLow (b : Block) (f : Img → Img) : (b.modImg f).trstLow = b.trstLow := rfl
@[simp] theorem Block.modImg_gsleep (b : Block) (f : Img → Img) : (b.modImg f).gsleep = b.gsleep := rfl
@[simp] theorem Block.modImg_clearDue (b : Block) (f : Img → Img) : (b.modImg f).clearDue = b.clearDue := rfl
@[simp] theorem Block.modImg_hintQ (b : Block) (f : Img → Img) : (b.modImg f).hintQ = b.hintQ := rfl
@[simp] theorem Block.modImg_tapInstr (b : Block) (f : Img → Img) : (b.modImg f).tapInstr = b.tapInstr := rfl
@[simp] theorem Block.modImg_tapOut (b : Block) (f : Img → Img) : (b.modImg f).tapOut = b.tapOut := rfl
@[simp] theorem Block.modImg_rgn (b : Block) (f : Img → Img) : (b.modImg f).rgn = b.rgn := rfl
@[simp] theorem Block.modImg_ph (b : Block) (f : Img → Img) : (b.modImg f).ph = b.ph := rfl
@[simp] theorem Block.modImg_wv (b : Block) (f : Img → Img) : (b.modImg f).wv = b.wv := rfl
@[simp] theorem Block.modImg_flt (b : Block) (f : Img → Img) : (b.modImg f).flt = b.flt := rfl
@[simp] theorem Block.modImg_eng (b : Block) (f : Img → Img) : (b.modImg f).eng = b.eng := rfl
@[simp] theorem Block.modImg_thm (b : Block) (f : Img → Img) : (b.modImg f).thm = b.thm := rfl
@[simp] theorem Block.modImg_clk (b : Block) (f : Img → Img) : (b.modImg f).clk = b.clk := rfl
@[simp] theorem Block.modImg_hint (b : Block) (f : Img → Img) : (b.modImg f).hint = b.hint := rfl
@[simp] theorem Block.modImg_hoop (b : Block) (f : Img → Img) : (b.modImg f).hoop = b.hoop := rfl
@[simp] theorem Block.modImg_red (b : Block) (f : Img → Img) : (b.modImg f).red = b.red := rfl
@[simp] theorem Block.modImg_adc (b : Block) (f : Img → Img) : (b.modImg f).adc = b.adc := rfl
@[simp] theorem Block.modImg_snap (b : Block) (f : Img → Img) : (b.modImg f).snap = b.snap := rfl
@[simp] theorem Block.modImg_trc (b : Block) (f : Img → Img) : (b.modImg f).trc = b.trc := rfl
@[simp] theorem Block.modImg_aonAt (b : Block) (f : Img → Img) : (b.modImg f).aonAt = b.aonAt := rfl

@[simp] theorem Block.modAdc_now (b : Block) (f : Adc → Adc) : (b.modAdc f).now = b.now := rfl
@[simp] theorem Block.modAdc_slo (b : Block) (f : Adc → Adc) : (b.modAdc f).slo = b.slo := rfl
@[simp] theorem Block.modAdc_freeCtr (b : Block) (f : Adc → Adc) : (b.modAdc f).freeCtr = b.freeCtr := rfl
@[simp] theorem Block.modAdc_regs (b : Block) (f : Adc → Adc) : (b.modAdc f).regs = b.regs := rfl
@[simp] theorem Block.modAdc_eff (b : Block) (f : Adc → Adc) : (b.modAdc f).eff = b.eff := rfl
@[simp] theorem Block.modAdc_rdata (b : Block) (f : Adc → Adc) : (b.modAdc f).rdata = b.rdata := rfl
@[simp] theorem Block.modAdc_tickHi (b : Block) (f : Adc → Adc) : (b.modAdc f).tickHi = b.tickHi := rfl
@[simp] theorem Block.modAdc_chipHi (b : Block) (f : Adc → Adc) : (b.modAdc f).chipHi = b.chipHi := rfl
@[simp] theorem Block.modAdc_energyHi (b : Block) (f : Adc → Adc) : (b.modAdc f).energyHi = b.energyHi := rfl
@[simp] theorem Block.modAdc_vinGood (b : Block) (f : Adc → Adc) : (b.modAdc f).vinGood = b.vinGood := rfl
@[simp] theorem Block.modAdc_aonUp (b : Block) (f : Adc → Adc) : (b.modAdc f).aonUp = b.aonUp := rfl
@[simp] theorem Block.modAdc_quiesceReq (b : Block) (f : Adc → Adc) : (b.modAdc f).quiesceReq = b.quiesceReq := rfl
@[simp] theorem Block.modAdc_quiesceAck (b : Block) (f : Adc → Adc) : (b.modAdc f).quiesceAck = b.quiesceAck := rfl
@[simp] theorem Block.modAdc_inReset (b : Block) (f : Adc → Adc) : (b.modAdc f).inReset = b.inReset := rfl
@[simp] theorem Block.modAdc_resetAt (b : Block) (f : Adc → Adc) : (b.modAdc f).resetAt = b.resetAt := rfl
@[simp] theorem Block.modAdc_extest (b : Block) (f : Adc → Adc) : (b.modAdc f).extest = b.extest := rfl
@[simp] theorem Block.modAdc_trustedPin (b : Block) (f : Adc → Adc) : (b.modAdc f).trustedPin = b.trustedPin := rfl
@[simp] theorem Block.modAdc_trstLow (b : Block) (f : Adc → Adc) : (b.modAdc f).trstLow = b.trstLow := rfl
@[simp] theorem Block.modAdc_gsleep (b : Block) (f : Adc → Adc) : (b.modAdc f).gsleep = b.gsleep := rfl
@[simp] theorem Block.modAdc_clearDue (b : Block) (f : Adc → Adc) : (b.modAdc f).clearDue = b.clearDue := rfl
@[simp] theorem Block.modAdc_hintQ (b : Block) (f : Adc → Adc) : (b.modAdc f).hintQ = b.hintQ := rfl
@[simp] theorem Block.modAdc_tapInstr (b : Block) (f : Adc → Adc) : (b.modAdc f).tapInstr = b.tapInstr := rfl
@[simp] theorem Block.modAdc_tapOut (b : Block) (f : Adc → Adc) : (b.modAdc f).tapOut = b.tapOut := rfl
@[simp] theorem Block.modAdc_rgn (b : Block) (f : Adc → Adc) : (b.modAdc f).rgn = b.rgn := rfl
@[simp] theorem Block.modAdc_ph (b : Block) (f : Adc → Adc) : (b.modAdc f).ph = b.ph := rfl
@[simp] theorem Block.modAdc_wv (b : Block) (f : Adc → Adc) : (b.modAdc f).wv = b.wv := rfl
@[simp] theorem Block.modAdc_flt (b : Block) (f : Adc → Adc) : (b.modAdc f).flt = b.flt := rfl
@[simp] theorem Block.modAdc_eng (b : Block) (f : Adc → Adc) : (b.modAdc f).eng = b.eng := rfl
@[simp] theorem Block.modAdc_img (b : Block) (f : Adc → Adc) : (b.modAdc f).img = b.img := rfl
@[simp] theorem Block.modAdc_thm (b : Block) (f : Adc → Adc) : (b.modAdc f).thm = b.thm := rfl
@[simp] theorem Block.modAdc_clk (b : Block) (f : Adc → Adc) : (b.modAdc f).clk = b.clk := rfl
@[simp] theorem Block.modAdc_hint (b : Block) (f : Adc → Adc) : (b.modAdc f).hint = b.hint := rfl
@[simp] theorem Block.modAdc_hoop (b : Block) (f : Adc → Adc) : (b.modAdc f).hoop = b.hoop := rfl
@[simp] theorem Block.modAdc_red (b : Block) (f : Adc → Adc) : (b.modAdc f).red = b.red := rfl
@[simp] theorem Block.modAdc_snap (b : Block) (f : Adc → Adc) : (b.modAdc f).snap = b.snap := rfl
@[simp] theorem Block.modAdc_trc (b : Block) (f : Adc → Adc) : (b.modAdc f).trc = b.trc := rfl
@[simp] theorem Block.modAdc_aonAt (b : Block) (f : Adc → Adc) : (b.modAdc f).aonAt = b.aonAt := rfl

@[simp] theorem Block.setNow_slo (b : Block) (t : Nat) : (b.setNow t).slo = b.slo := rfl
@[simp] theorem Block.setNow_freeCtr (b : Block) (t : Nat) : (b.setNow t).freeCtr = b.freeCtr := rfl
@[simp] theorem Block.setNow_regs (b : Block) (t : Nat) : (b.setNow t).regs = b.regs := rfl
@[simp] theorem Block.setNow_eff (b : Block) (t : Nat) : (b.setNow t).eff = b.eff := rfl
@[simp] theorem Block.setNow_rdata (b : Block) (t : Nat) : (b.setNow t).rdata = b.rdata := rfl
@[simp] theorem Block.setNow_tickHi (b : Block) (t : Nat) : (b.setNow t).tickHi = b.tickHi := rfl
@[simp] theorem Block.setNow_chipHi (b : Block) (t : Nat) : (b.setNow t).chipHi = b.chipHi := rfl
@[simp] theorem Block.setNow_energyHi (b : Block) (t : Nat) : (b.setNow t).energyHi = b.energyHi := rfl
@[simp] theorem Block.setNow_vinGood (b : Block) (t : Nat) : (b.setNow t).vinGood = b.vinGood := rfl
@[simp] theorem Block.setNow_aonUp (b : Block) (t : Nat) : (b.setNow t).aonUp = b.aonUp := rfl
@[simp] theorem Block.setNow_quiesceReq (b : Block) (t : Nat) : (b.setNow t).quiesceReq = b.quiesceReq := rfl
@[simp] theorem Block.setNow_quiesceAck (b : Block) (t : Nat) : (b.setNow t).quiesceAck = b.quiesceAck := rfl
@[simp] theorem Block.setNow_inReset (b : Block) (t : Nat) : (b.setNow t).inReset = b.inReset := rfl
@[simp] theorem Block.setNow_resetAt (b : Block) (t : Nat) : (b.setNow t).resetAt = b.resetAt := rfl
@[simp] theorem Block.setNow_extest (b : Block) (t : Nat) : (b.setNow t).extest = b.extest := rfl
@[simp] theorem Block.setNow_trustedPin (b : Block) (t : Nat) : (b.setNow t).trustedPin = b.trustedPin := rfl
@[simp] theorem Block.setNow_trstLow (b : Block) (t : Nat) : (b.setNow t).trstLow = b.trstLow := rfl
@[simp] theorem Block.setNow_gsleep (b : Block) (t : Nat) : (b.setNow t).gsleep = b.gsleep := rfl
@[simp] theorem Block.setNow_clearDue (b : Block) (t : Nat) : (b.setNow t).clearDue = b.clearDue := rfl
@[simp] theorem Block.setNow_hintQ (b : Block) (t : Nat) : (b.setNow t).hintQ = b.hintQ := rfl
@[simp] theorem Block.setNow_tapInstr (b : Block) (t : Nat) : (b.setNow t).tapInstr = b.tapInstr := rfl
@[simp] theorem Block.setNow_tapOut (b : Block) (t : Nat) : (b.setNow t).tapOut = b.tapOut := rfl
@[simp] theorem Block.setNow_rgn (b : Block) (t : Nat) : (b.setNow t).rgn = b.rgn := rfl
@[simp] theorem Block.setNow_ph (b : Block) (t : Nat) : (b.setNow t).ph = b.ph := rfl
@[simp] theorem Block.setNow_wv (b : Block) (t : Nat) : (b.setNow t).wv = b.wv := rfl
@[simp] theorem Block.setNow_flt (b : Block) (t : Nat) : (b.setNow t).flt = b.flt := rfl
@[simp] theorem Block.setNow_eng (b : Block) (t : Nat) : (b.setNow t).eng = b.eng := rfl
@[simp] theorem Block.setNow_img (b : Block) (t : Nat) : (b.setNow t).img = b.img := rfl
@[simp] theorem Block.setNow_thm (b : Block) (t : Nat) : (b.setNow t).thm = b.thm := rfl
@[simp] theorem Block.setNow_clk (b : Block) (t : Nat) : (b.setNow t).clk = b.clk := rfl
@[simp] theorem Block.setNow_hint (b : Block) (t : Nat) : (b.setNow t).hint = b.hint := rfl
@[simp] theorem Block.setNow_hoop (b : Block) (t : Nat) : (b.setNow t).hoop = b.hoop := rfl
@[simp] theorem Block.setNow_red (b : Block) (t : Nat) : (b.setNow t).red = b.red := rfl
@[simp] theorem Block.setNow_adc (b : Block) (t : Nat) : (b.setNow t).adc = b.adc := rfl
@[simp] theorem Block.setNow_snap (b : Block) (t : Nat) : (b.setNow t).snap = b.snap := rfl
@[simp] theorem Block.setNow_trc (b : Block) (t : Nat) : (b.setNow t).trc = b.trc := rfl
@[simp] theorem Block.setNow_aonAt (b : Block) (t : Nat) : (b.setNow t).aonAt = b.aonAt := rfl

@[simp] theorem Block.modEng_eng (b : Block) (f : Eng → Eng) : (b.modEng f).eng = f b.eng := rfl
@[simp] theorem Block.modThm_thm (b : Block) (f : Thm → Thm) : (b.modThm f).thm = f b.thm := rfl
@[simp] theorem Block.modClk_clk (b : Block) (f : Clk → Clk) : (b.modClk f).clk = f b.clk := rfl
@[simp] theorem Block.modHoop_hoop (b : Block) (f : Hoop → Hoop) : (b.modHoop f).hoop = f b.hoop := rfl
@[simp] theorem Block.modRed_red (b : Block) (f : Red → Red) : (b.modRed f).red = f b.red := rfl
@[simp] theorem Block.modTrc_trc (b : Block) (f : Trc → Trc) : (b.modTrc f).trc = f b.trc := rfl
@[simp] theorem Block.modImg_img (b : Block) (f : Img → Img) : (b.modImg f).img = f b.img := rfl
@[simp] theorem Block.modAdc_adc (b : Block) (f : Adc → Adc) : (b.modAdc f).adc = f b.adc := rfl
@[simp] theorem Block.setNow_now (b : Block) (t : Nat) : (b.setNow t).now = max b.now t := rfl
@[simp] theorem Block.efld_setReg (b : Block) (a : Nat) (w : Word) (x : Fld) (j : Nat) : (b.setReg a w).efld x j = b.efld x j := rfl
@[simp] theorem Block.R_setReg (b : Block) (a : Nat) (w : Word) (k : Nat) : (b.setReg a w).R k = b.R k := rfl
@[simp] theorem Block.P_setReg (b : Block) (a : Nat) (w : Word) (k : Nat) : (b.setReg a w).P k = b.P k := rfl
@[simp] theorem Block.W_setReg (b : Block) (a : Nat) (w : Word) (k : Nat) : (b.setReg a w).W k = b.W k := rfl
@[simp] theorem Block.H_setReg (b : Block) (a : Nat) (w : Word) (k : Nat) : (b.setReg a w).H k = b.H k := rfl
@[simp] theorem Block.efld_put (b : Block) (f : Fld) (v i : Nat) (x : Fld) (j : Nat) : (b.put f v i).efld x j = b.efld x j := rfl
@[simp] theorem Block.R_put (b : Block) (f : Fld) (v i : Nat) (k : Nat) : (b.put f v i).R k = b.R k := rfl
@[simp] theorem Block.P_put (b : Block) (f : Fld) (v i : Nat) (k : Nat) : (b.put f v i).P k = b.P k := rfl
@[simp] theorem Block.W_put (b : Block) (f : Fld) (v i : Nat) (k : Nat) : (b.put f v i).W k = b.W k := rfl
@[simp] theorem Block.H_put (b : Block) (f : Fld) (v i : Nat) (k : Nat) : (b.put f v i).H k = b.H k := rfl
@[simp] theorem Block.reg_modR (b : Block) (n : Nat) (f : Rgn → Rgn) (a : Nat) : (b.modR n f).reg a = b.reg a := rfl
@[simp] theorem Block.fld_modR (b : Block) (n : Nat) (f : Rgn → Rgn) (x : Fld) (j : Nat) : (b.modR n f).fld x j = b.fld x j := rfl
@[simp] theorem Block.bit_modR (b : Block) (n : Nat) (f : Rgn → Rgn) (x : Fld) (j : Nat) : (b.modR n f).bit x j = b.bit x j := rfl
@[simp] theorem Block.efld_modR (b : Block) (n : Nat) (f : Rgn → Rgn) (x : Fld) (j : Nat) : (b.modR n f).efld x j = b.efld x j := rfl
@[simp] theorem Block.P_modR (b : Block) (n : Nat) (f : Rgn → Rgn) (k : Nat) : (b.modR n f).P k = b.P k := rfl
@[simp] theorem Block.W_modR (b : Block) (n : Nat) (f : Rgn → Rgn) (k : Nat) : (b.modR n f).W k = b.W k := rfl
@[simp] theorem Block.H_modR (b : Block) (n : Nat) (f : Rgn → Rgn) (k : Nat) : (b.modR n f).H k = b.H k := rfl
@[simp] theorem Block.reg_modP (b : Block) (p : Nat) (f : Ph → Ph) (a : Nat) : (b.modP p f).reg a = b.reg a := rfl
@[simp] theorem Block.fld_modP (b : Block) (p : Nat) (f : Ph → Ph) (x : Fld) (j : Nat) : (b.modP p f).fld x j = b.fld x j := rfl
@[simp] theorem Block.bit_modP (b : Block) (p : Nat) (f : Ph → Ph) (x : Fld) (j : Nat) : (b.modP p f).bit x j = b.bit x j := rfl
@[simp] theorem Block.efld_modP (b : Block) (p : Nat) (f : Ph → Ph) (x : Fld) (j : Nat) : (b.modP p f).efld x j = b.efld x j := rfl
@[simp] theorem Block.R_modP (b : Block) (p : Nat) (f : Ph → Ph) (k : Nat) : (b.modP p f).R k = b.R k := rfl
@[simp] theorem Block.W_modP (b : Block) (p : Nat) (f : Ph → Ph) (k : Nat) : (b.modP p f).W k = b.W k := rfl
@[simp] theorem Block.H_modP (b : Block) (p : Nat) (f : Ph → Ph) (k : Nat) : (b.modP p f).H k = b.H k := rfl
@[simp] theorem Block.reg_modW (b : Block) (w : Nat) (f : Wv → Wv) (a : Nat) : (b.modW w f).reg a = b.reg a := rfl
@[simp] theorem Block.fld_modW (b : Block) (w : Nat) (f : Wv → Wv) (x : Fld) (j : Nat) : (b.modW w f).fld x j = b.fld x j := rfl
@[simp] theorem Block.bit_modW (b : Block) (w : Nat) (f : Wv → Wv) (x : Fld) (j : Nat) : (b.modW w f).bit x j = b.bit x j := rfl
@[simp] theorem Block.efld_modW (b : Block) (w : Nat) (f : Wv → Wv) (x : Fld) (j : Nat) : (b.modW w f).efld x j = b.efld x j := rfl
@[simp] theorem Block.R_modW (b : Block) (w : Nat) (f : Wv → Wv) (k : Nat) : (b.modW w f).R k = b.R k := rfl
@[simp] theorem Block.P_modW (b : Block) (w : Nat) (f : Wv → Wv) (k : Nat) : (b.modW w f).P k = b.P k := rfl
@[simp] theorem Block.H_modW (b : Block) (w : Nat) (f : Wv → Wv) (k : Nat) : (b.modW w f).H k = b.H k := rfl
@[simp] theorem Block.reg_modH (b : Block) (g : Nat) (f : Hint → Hint) (a : Nat) : (b.modH g f).reg a = b.reg a := rfl
@[simp] theorem Block.fld_modH (b : Block) (g : Nat) (f : Hint → Hint) (x : Fld) (j : Nat) : (b.modH g f).fld x j = b.fld x j := rfl
@[simp] theorem Block.bit_modH (b : Block) (g : Nat) (f : Hint → Hint) (x : Fld) (j : Nat) : (b.modH g f).bit x j = b.bit x j := rfl
@[simp] theorem Block.efld_modH (b : Block) (g : Nat) (f : Hint → Hint) (x : Fld) (j : Nat) : (b.modH g f).efld x j = b.efld x j := rfl
@[simp] theorem Block.R_modH (b : Block) (g : Nat) (f : Hint → Hint) (k : Nat) : (b.modH g f).R k = b.R k := rfl
@[simp] theorem Block.P_modH (b : Block) (g : Nat) (f : Hint → Hint) (k : Nat) : (b.modH g f).P k = b.P k := rfl
@[simp] theorem Block.W_modH (b : Block) (g : Nat) (f : Hint → Hint) (k : Nat) : (b.modH g f).W k = b.W k := rfl
@[simp] theorem Block.reg_modEng (b : Block) (f : Eng → Eng) (a : Nat) : (b.modEng f).reg a = b.reg a := rfl
@[simp] theorem Block.fld_modEng (b : Block) (f : Eng → Eng) (x : Fld) (j : Nat) : (b.modEng f).fld x j = b.fld x j := rfl
@[simp] theorem Block.bit_modEng (b : Block) (f : Eng → Eng) (x : Fld) (j : Nat) : (b.modEng f).bit x j = b.bit x j := rfl
@[simp] theorem Block.efld_modEng (b : Block) (f : Eng → Eng) (x : Fld) (j : Nat) : (b.modEng f).efld x j = b.efld x j := rfl
@[simp] theorem Block.R_modEng (b : Block) (f : Eng → Eng) (k : Nat) : (b.modEng f).R k = b.R k := rfl
@[simp] theorem Block.P_modEng (b : Block) (f : Eng → Eng) (k : Nat) : (b.modEng f).P k = b.P k := rfl
@[simp] theorem Block.W_modEng (b : Block) (f : Eng → Eng) (k : Nat) : (b.modEng f).W k = b.W k := rfl
@[simp] theorem Block.H_modEng (b : Block) (f : Eng → Eng) (k : Nat) : (b.modEng f).H k = b.H k := rfl
@[simp] theorem Block.reg_modThm (b : Block) (f : Thm → Thm) (a : Nat) : (b.modThm f).reg a = b.reg a := rfl
@[simp] theorem Block.fld_modThm (b : Block) (f : Thm → Thm) (x : Fld) (j : Nat) : (b.modThm f).fld x j = b.fld x j := rfl
@[simp] theorem Block.bit_modThm (b : Block) (f : Thm → Thm) (x : Fld) (j : Nat) : (b.modThm f).bit x j = b.bit x j := rfl
@[simp] theorem Block.efld_modThm (b : Block) (f : Thm → Thm) (x : Fld) (j : Nat) : (b.modThm f).efld x j = b.efld x j := rfl
@[simp] theorem Block.R_modThm (b : Block) (f : Thm → Thm) (k : Nat) : (b.modThm f).R k = b.R k := rfl
@[simp] theorem Block.P_modThm (b : Block) (f : Thm → Thm) (k : Nat) : (b.modThm f).P k = b.P k := rfl
@[simp] theorem Block.W_modThm (b : Block) (f : Thm → Thm) (k : Nat) : (b.modThm f).W k = b.W k := rfl
@[simp] theorem Block.H_modThm (b : Block) (f : Thm → Thm) (k : Nat) : (b.modThm f).H k = b.H k := rfl
@[simp] theorem Block.reg_modClk (b : Block) (f : Clk → Clk) (a : Nat) : (b.modClk f).reg a = b.reg a := rfl
@[simp] theorem Block.fld_modClk (b : Block) (f : Clk → Clk) (x : Fld) (j : Nat) : (b.modClk f).fld x j = b.fld x j := rfl
@[simp] theorem Block.bit_modClk (b : Block) (f : Clk → Clk) (x : Fld) (j : Nat) : (b.modClk f).bit x j = b.bit x j := rfl
@[simp] theorem Block.efld_modClk (b : Block) (f : Clk → Clk) (x : Fld) (j : Nat) : (b.modClk f).efld x j = b.efld x j := rfl
@[simp] theorem Block.R_modClk (b : Block) (f : Clk → Clk) (k : Nat) : (b.modClk f).R k = b.R k := rfl
@[simp] theorem Block.P_modClk (b : Block) (f : Clk → Clk) (k : Nat) : (b.modClk f).P k = b.P k := rfl
@[simp] theorem Block.W_modClk (b : Block) (f : Clk → Clk) (k : Nat) : (b.modClk f).W k = b.W k := rfl
@[simp] theorem Block.H_modClk (b : Block) (f : Clk → Clk) (k : Nat) : (b.modClk f).H k = b.H k := rfl
@[simp] theorem Block.reg_modHoop (b : Block) (f : Hoop → Hoop) (a : Nat) : (b.modHoop f).reg a = b.reg a := rfl
@[simp] theorem Block.fld_modHoop (b : Block) (f : Hoop → Hoop) (x : Fld) (j : Nat) : (b.modHoop f).fld x j = b.fld x j := rfl
@[simp] theorem Block.bit_modHoop (b : Block) (f : Hoop → Hoop) (x : Fld) (j : Nat) : (b.modHoop f).bit x j = b.bit x j := rfl
@[simp] theorem Block.efld_modHoop (b : Block) (f : Hoop → Hoop) (x : Fld) (j : Nat) : (b.modHoop f).efld x j = b.efld x j := rfl
@[simp] theorem Block.R_modHoop (b : Block) (f : Hoop → Hoop) (k : Nat) : (b.modHoop f).R k = b.R k := rfl
@[simp] theorem Block.P_modHoop (b : Block) (f : Hoop → Hoop) (k : Nat) : (b.modHoop f).P k = b.P k := rfl
@[simp] theorem Block.W_modHoop (b : Block) (f : Hoop → Hoop) (k : Nat) : (b.modHoop f).W k = b.W k := rfl
@[simp] theorem Block.H_modHoop (b : Block) (f : Hoop → Hoop) (k : Nat) : (b.modHoop f).H k = b.H k := rfl
@[simp] theorem Block.reg_modRed (b : Block) (f : Red → Red) (a : Nat) : (b.modRed f).reg a = b.reg a := rfl
@[simp] theorem Block.fld_modRed (b : Block) (f : Red → Red) (x : Fld) (j : Nat) : (b.modRed f).fld x j = b.fld x j := rfl
@[simp] theorem Block.bit_modRed (b : Block) (f : Red → Red) (x : Fld) (j : Nat) : (b.modRed f).bit x j = b.bit x j := rfl
@[simp] theorem Block.efld_modRed (b : Block) (f : Red → Red) (x : Fld) (j : Nat) : (b.modRed f).efld x j = b.efld x j := rfl
@[simp] theorem Block.R_modRed (b : Block) (f : Red → Red) (k : Nat) : (b.modRed f).R k = b.R k := rfl
@[simp] theorem Block.P_modRed (b : Block) (f : Red → Red) (k : Nat) : (b.modRed f).P k = b.P k := rfl
@[simp] theorem Block.W_modRed (b : Block) (f : Red → Red) (k : Nat) : (b.modRed f).W k = b.W k := rfl
@[simp] theorem Block.H_modRed (b : Block) (f : Red → Red) (k : Nat) : (b.modRed f).H k = b.H k := rfl
@[simp] theorem Block.reg_modTrc (b : Block) (f : Trc → Trc) (a : Nat) : (b.modTrc f).reg a = b.reg a := rfl
@[simp] theorem Block.fld_modTrc (b : Block) (f : Trc → Trc) (x : Fld) (j : Nat) : (b.modTrc f).fld x j = b.fld x j := rfl
@[simp] theorem Block.bit_modTrc (b : Block) (f : Trc → Trc) (x : Fld) (j : Nat) : (b.modTrc f).bit x j = b.bit x j := rfl
@[simp] theorem Block.efld_modTrc (b : Block) (f : Trc → Trc) (x : Fld) (j : Nat) : (b.modTrc f).efld x j = b.efld x j := rfl
@[simp] theorem Block.R_modTrc (b : Block) (f : Trc → Trc) (k : Nat) : (b.modTrc f).R k = b.R k := rfl
@[simp] theorem Block.P_modTrc (b : Block) (f : Trc → Trc) (k : Nat) : (b.modTrc f).P k = b.P k := rfl
@[simp] theorem Block.W_modTrc (b : Block) (f : Trc → Trc) (k : Nat) : (b.modTrc f).W k = b.W k := rfl
@[simp] theorem Block.H_modTrc (b : Block) (f : Trc → Trc) (k : Nat) : (b.modTrc f).H k = b.H k := rfl
@[simp] theorem Block.reg_modImg (b : Block) (f : Img → Img) (a : Nat) : (b.modImg f).reg a = b.reg a := rfl
@[simp] theorem Block.fld_modImg (b : Block) (f : Img → Img) (x : Fld) (j : Nat) : (b.modImg f).fld x j = b.fld x j := rfl
@[simp] theorem Block.bit_modImg (b : Block) (f : Img → Img) (x : Fld) (j : Nat) : (b.modImg f).bit x j = b.bit x j := rfl
@[simp] theorem Block.efld_modImg (b : Block) (f : Img → Img) (x : Fld) (j : Nat) : (b.modImg f).efld x j = b.efld x j := rfl
@[simp] theorem Block.R_modImg (b : Block) (f : Img → Img) (k : Nat) : (b.modImg f).R k = b.R k := rfl
@[simp] theorem Block.P_modImg (b : Block) (f : Img → Img) (k : Nat) : (b.modImg f).P k = b.P k := rfl
@[simp] theorem Block.W_modImg (b : Block) (f : Img → Img) (k : Nat) : (b.modImg f).W k = b.W k := rfl
@[simp] theorem Block.H_modImg (b : Block) (f : Img → Img) (k : Nat) : (b.modImg f).H k = b.H k := rfl
@[simp] theorem Block.reg_modAdc (b : Block) (f : Adc → Adc) (a : Nat) : (b.modAdc f).reg a = b.reg a := rfl
@[simp] theorem Block.fld_modAdc (b : Block) (f : Adc → Adc) (x : Fld) (j : Nat) : (b.modAdc f).fld x j = b.fld x j := rfl
@[simp] theorem Block.bit_modAdc (b : Block) (f : Adc → Adc) (x : Fld) (j : Nat) : (b.modAdc f).bit x j = b.bit x j := rfl
@[simp] theorem Block.efld_modAdc (b : Block) (f : Adc → Adc) (x : Fld) (j : Nat) : (b.modAdc f).efld x j = b.efld x j := rfl
@[simp] theorem Block.R_modAdc (b : Block) (f : Adc → Adc) (k : Nat) : (b.modAdc f).R k = b.R k := rfl
@[simp] theorem Block.P_modAdc (b : Block) (f : Adc → Adc) (k : Nat) : (b.modAdc f).P k = b.P k := rfl
@[simp] theorem Block.W_modAdc (b : Block) (f : Adc → Adc) (k : Nat) : (b.modAdc f).W k = b.W k := rfl
@[simp] theorem Block.H_modAdc (b : Block) (f : Adc → Adc) (k : Nat) : (b.modAdc f).H k = b.H k := rfl
@[simp] theorem Block.reg_setNow (b : Block) (t : Nat) (a : Nat) : (b.setNow t).reg a = b.reg a := rfl
@[simp] theorem Block.fld_setNow (b : Block) (t : Nat) (x : Fld) (j : Nat) : (b.setNow t).fld x j = b.fld x j := rfl
@[simp] theorem Block.bit_setNow (b : Block) (t : Nat) (x : Fld) (j : Nat) : (b.setNow t).bit x j = b.bit x j := rfl
@[simp] theorem Block.efld_setNow (b : Block) (t : Nat) (x : Fld) (j : Nat) : (b.setNow t).efld x j = b.efld x j := rfl
@[simp] theorem Block.R_setNow (b : Block) (t : Nat) (k : Nat) : (b.setNow t).R k = b.R k := rfl
@[simp] theorem Block.P_setNow (b : Block) (t : Nat) (k : Nat) : (b.setNow t).P k = b.P k := rfl
@[simp] theorem Block.W_setNow (b : Block) (t : Nat) (k : Nat) : (b.setNow t).W k = b.W k := rfl
@[simp] theorem Block.H_setNow (b : Block) (t : Nat) (k : Nat) : (b.setNow t).H k = b.H k := rfl

end Sys2Proof.Machine
end

