-- ==== Sys2Proof/Laws/Ops.lean ====
section
/-! SUPPORT. What the shared operations do, said once each: time that passes, a transfer on the register port, and the
frames of the operations that change one part of the block. -/

namespace Sys2Proof.Machine

/-- A meaning written as a change of the block completes with that change. -/
theorem State.run_completes (s : State) (f : Block → Block) (c : Instr) (Q : Block → Prop) (h : exec c s = s.run f)
    (hq : Q (f s.blk)) : Completes c s Q := ⟨_, h, rfl, hq⟩

/-- Time passes and nothing else happens unless the collector's rebuild may fall due. -/
theorem Block.at_calm (b : Block) (t : Nat) (h : b.Calm) : b.at t = b.setNow t := by
  have h2 : b.flt.step ≠ 1 := h
  unfold Block.at
  simp [h2]

/-- A transfer on the register port before its effect: the engine clock restarts if it stands, and the write is noted. -/
def Block.port (b : Block) (a : Nat) (data : Word) : Block := b.restartEvent.note (.hostw b.cycleNow a data)

@[simp] theorem Block.restartEvent_regs (b : Block) : b.restartEvent.regs = b.regs := by
  unfold Block.restartEvent; split <;> rfl
@[simp] theorem Block.note_regs (b : Block) (e : TrcEvent) : (b.note e).regs = b.regs := by
  unfold Block.note; split <;> rfl
@[simp] theorem Block.port_regs (b : Block) (a : Nat) (data : Word) : (b.port a data).regs = b.regs := by
  simp [Block.port]

/-- A transfer changes the restart mark and the log of the coming snapshot alone. -/
theorem Block.port_only (b : Block) (a : Nat) (data : Word) : b.PortOnly (b.port a data) := by
  unfold Block.port Block.restartEvent Block.note
  split <;> split <;> rfl

/-- A transfer with no host error has its effect, and nothing more. -/
theorem Block.hostWrite_plain (b : Block) (a : Nat) (data : Word) (f : Block → Word → Block) (h : b.PlainWrite a data) :
    b.hostWrite a data f = f (b.port a data) data := by
  have e : (b.port a data).bit TRC_REPLAY_BUSY = false := by
    have h2 := h.2
    simp only [Block.bit, Block.fld, Block.reg, Block.port_regs] at h2 ⊢
    exact h2
  unfold Block.hostWrite
  have h3 : (decide (data &&& reservedBits a = 0) && !(b.port a data).bit TRC_REPLAY_BUSY) = true := by simp [e, h.1]
  exact if_pos h3

end Sys2Proof.Machine
end

