-- ==== Sys2Proof/Tests/Slice0.lean ====
section
/-! SUPPORT. Tests of the model. The `wit_` theorems show, for each claim of Certificates/Slice0/Obligations.lean with
hypotheses, a state and operands that meet them, at the boundary of a range where a clause has one. The `test_wf_` theorems
show, for each check of WellFormed.lean, a term it accepts and one it refuses. The others run one command. -/

namespace Sys2Proof.Tests

open Sys2Proof Sys2Proof.Machine

set_option Elab.async false

/-- A word of the host window laid over a block, whatever the register's reset word. -/
def lay (b : Block) (a : Nat) (w : Word) : Block := { b with regs := (b.regs.erase a).place a w }

/-- The block after reset with some fields set (field, value, index), and the registers of which the configuration fixes a part
given whole: IMG_STATUS, CLK_XCFG, and IMG_CTL; then changed by `f`. -/
def mk (fs : List (Fld × Nat × Nat) := []) (f : Block → Block := id) (imgStatus : Word := 0) (xcfg : Word := 0) : State :=
  let b := fs.foldl (fun b x => b.put x.1 x.2.1 x.2.2) State.reset.blk
  { pending := [], blk := f (lay (lay (lay b IMG_STATUS_ERR.base imgStatus) IMG_CTL_HOLD_DARK.base 0) CLK_XCFG_XB_10K.base xcfg) }

def wBusyRead : State := mk [(ENG_MADDR_BUSY, 1, 0)] (fun b => b.modEng (fun e => { e with mread := some ⟨1, 32767⟩, sm := [(32767, 9)] }))
def wMemHalted : State := mk [(ENG_STATUS_STATE, 3, 0), (ENG_MADDR_MEM, 1, 0), (ENG_MADDR_WORD, 32767, 0), (ENG_MDATA_DATA, 7, 1)]
def wMemRunning : State := mk [(ENG_STATUS_STATE, 2, 0), (ENG_MADDR_MEM, 1, 0)]
def wSpares : State := mk [(PH_STATE_POPULATED, 1, 1024), (PH_STATE_COND, 1, 1024), (PH_STATE_LOGICAL, noLogical, 1024)]
def wGroup : State := mk [(REG_GROUP_VALID, 1, 255), (REG_GROUP_GROUP, 31, 255), (REG_PSTATE_STATE, 4, 255), (REG_PSTATE_DEPTH, 2, 255)] (fun b => b.applyWrites)
def wStandby : State := mk [(CLK_STATUS_PLLP_RDY, 1, 0), (CLK_STATUS_PLLS_RDY, 1, 0), (CLK_STATUS_PLLE_RDY, 1, 0), (CLK_STATUS_FIO_RDY, 1, 0)]
def wXb : State := mk [(CLK_STATUS_XB_RDY, 1, 0)] (xcfg := 0x03E80000)
def wXbRef : State := mk [(CLK_STATUS_REF, 1, 0)] (xcfg := 0x03E80000)
def wCal (full : Bool) (v : Nat) (settled : Bool := true) : State := mk [(ADC_CAL_CTL_CAL_BUSY, 1, 0)] (fun b => { (if settled then [0, 1, 2, 3].foldl (fun b g => b.setSettled g true) b else b) with adc := { b.adc with full := full, vfull := v, zeroOk := true } })
def means (m : Nat) : List CalMean := (List.range 288).map (fun c => { conv := c, mean := m, spread := 8 })
def wide : List CalMean := { conv := 0, mean := 0, spread := 9 } :: (means 0).tail
def wStaged : State := mk [] (fun b => b.modImg (fun i => { i with rcCount := some 131072 }))
def wSafeRun : State := mk [(REG_PSTATE_STATE, 4, 255)] (imgStatus := 0x8000)
def pmbRead : Word := Fld.put PMB_CTL_READ (Fld.put PMB_CTL_SIZE (Fld.put PMB_CTL_CMD 0x80000000 0x79) 2) 1
def wHalted : State := mk [(ENG_STATUS_STATE, 3, 0)]
def wRing : State := mk [(TRC_CTL_MODE, 1, 0), (TRC_STATUS_RECORDING, 1, 0)]
def stateRec : TrcState := { tickno := 2 ^ 64 - 1, seed := 5, chip := 3, gen := 0, digest := [], tickLen := 0, arrays := 4, det := 0, flags := 0, sm := [] }
def wReplay : State := mk [(ENG_STATUS_STATE, 3, 0), (ENG_STATUS_ARRAYS, 4, 0), (TRC_STATUS_REPLAYABLE, 1, 0)]
  (fun b => b.modTrc (fun t => { t with mem := [{ kind := kState, state := some stateRec }, { kind := kEnd }] }))
def wPend (insts : List (Nat × Nat)) (fs : List (Fld × Nat × Nat) := []) : State := mk fs (fun b => { b with flt := { b.flt with insts := insts } })
def wUp (fs : List (Fld × Nat × Nat) := []) (f : Block → Block := id) : State :=
  mk fs (fun b => f { b.modImg (fun i => { i with accepted := true }) with aonUp := true, vinGood := true })
def wHot : State := wPend [(srcTHM_STOP, 0)] [(THM_STATUS_STOP, 1, 0)]
def wHint (fs : List (Fld × Nat × Nat) := []) (f : Block → Block := id) : State :=
  wUp ([(REG_GROUP_VALID, 1, 255), (REG_GROUP_GROUP, 31, 255)] ++ fs) (fun b => f b.applyWrites)
def hintWord (ty g rest : Nat) : BitVec 64 := BitVec.ofNat 64 (ty * 2 ^ 60 + g * 2 ^ 55 + rest)
def wBars (n : Nat) : State := wHint [] (fun b => { b.modH 31 (fun x => { x with openBars := (List.range n).map (fun i => (i, 0)) }) with slo := 80000 })
def wReset : State := wUp [(FLT_CFG_REACT, 3, srcUV)]
def wThird : State := wUp [(FLT_CFG_REACT, 3, srcUV)] (fun b => { b with flt := { b.flt with resets := [0, 0] } })
def wTwoUv : State := wPend [(srcUV, 255), (srcUV, 3), (srcSLO_STOP, 0)]
def clearWord (src index : Nat) : Word := BitVec.ofNat 32 (src + index * 65536)
def wFull : State := mk [(TRC_STATUS_FULL, 1, 0)]
def wHotNow : State := mk [(THM_STATUS_STOP, 1, 0)] (fun b =>
  { b with flt := { b.flt with insts := [(srcTHM_STOP, 0)] }, thm := { b.thm with thr := 10, tg := [(255, 400 * 110)] } })
def wSlo : State := wUp [(CLK_STATUS_SLO_RDY, 1, 0)]
def wMildOv : State := mk [(FLT_CFG_REACT, 1, srcOV), (FLT_CFG_REACT, 1, srcSHORT)]
def wAsleep : State := wHint [(REG_PSTATE_STATE, 6, 255)]
def forecastBits : Nat := 200 * 2 ^ 47 + 60000 * 2 ^ 31
def wTick (f : Eng → Eng := id) (fs : List (Fld × Nat × Nat) := []) : State :=
  mk ([(ENG_STATUS_ARRAYS, 4, 0), (ENG_ARRAY_ORPHAN, 7, 0)] ++ fs) (fun b => b.modEng (fun e => f { e with run := .tick, pc := 7 }))
def wInitRun : State := mk [] (fun b => b.modEng (fun e => { e with run := .init, scal := [(0, 5), (55, 9)] }))
def rows : Eng → Eng := fun e => { e with
  blk := (List.range 500).map (fun i => (i, BitVec.ofNat 1152 ((2 ^ 1152 - 1) / (7 * i + 3)))), scal := [(0, 3), (1, 250), (16, 1), (17, 251)] }
def wRows : State := wTick rows
def wPhases (isV : Nat := 0) (fs : List (Fld × Nat × Nat) := []) (f : Block → Block := id) : State :=
  mk ([(CFG_STRAP_BUILD, isV, 0), (PH_STATE_POPULATED, 1, 5), (PH_STATE_COND, cSafe, 5), (PH_STATE_LOGICAL, 5, 5),
    (PH_STATE_POPULATED, 1, 1087), (PH_STATE_COND, 1, 1087), (PH_STATE_LOGICAL, noLogical, 1087)] ++ fs) f
def wSwap (f : Block → Block := id) (st : Nat := stSelect) (fs : List (Fld × Nat × Nat) := []) : State :=
  mk ([(PH_STATE_POPULATED, 1, 1087), (PH_STATE_COND, cCalibrating, 1087), (PH_STATE_LOGICAL, noLogical, 1087), (WV_SWAP_STAGE, st, 15)] ++ fs)
    (fun b => f (b.modW 15 (fun w => { w with run := some { lpos := 1023 }, spare := 1087 })))
def wSwapQ (st : Nat := sRun) (more : Nat := 0) (zc : Bool := false) : State := mk [(REG_PSTATE_STATE, st, 255), (PH_STATE_POPULATED, 1, 1087), (PH_STATE_COND, 1, 1087), (PH_STATE_LOGICAL, noLogical, 1087),
   (PH_STATE_POPULATED, more, 1086), (PH_STATE_COND, 1, 1086), (PH_STATE_LOGICAL, noLogical, 1086)]
  (fun b => (if zc then b.modP 1087 (fun p => { p with last := some ⟨1087, 0, false, true, false, false⟩ }) else b).modW 15
    (fun w => { w with queue := [{ lpos := 1023 }] }))
def zc (v : Bool) : Block → Block := fun b => b.modP 1087 (fun p => { p with last := some ⟨1087, 0, false, v, false, false⟩ })
def wPulse (fl : Bool := false) : State :=
  wSwap (fun b => b.modW 15 (fun w => { w with ramp := 400, calLog := List.replicate 100 (0, 8), calFl := fl })) stCalPulse
def wRank (f : Wv → Wv := id) : State := mk [(REG_PSTATE_STATE, 4, 255), (PH_STATE_POPULATED, 1, 1022), (PH_STATE_COND, cSwitching, 1022),
  (PH_STATE_LOGICAL, 1022, 1022), (PH_STATE_POPULATED, 1, 1023), (PH_STATE_COND, cSwitching, 1023), (PH_STATE_LOGICAL, 1023, 1023)]
  (fun b => b.modW 15 f)
def wEpisode (f : Rgn → Rgn := id) : State := mk [(REG_PSTATE_STATE, 4, 255)]
  (fun b => b.modR 255 (fun r => f { r with episode := true, rounds := 1, epMin := 70, droopAssert := true }))
def wRegion (f : Rgn → Rgn := id) (fs : List (Fld × Nat × Nat) := []) : State := mk ([(REG_PSTATE_STATE, 4, 255)] ++ fs) (fun b => b.modR 255 f)
def wSettled : Block → Block := fun b => [0, 1, 2, 3].foldl (fun b g => b.setSettled g true) b
def wConv (f : Rgn → Rgn := id) (fs : List (Fld × Nat × Nat) := []) (settled : Bool := true) : State :=
  mk ([(REG_PSTATE_STATE, 4, 255), (REG_VSENSE_WINDOW, 32, 255)] ++ fs) (fun b => (if settled then wSettled b else b).modR 255 f)
def wArb (fs : List (Fld × Nat × Nat) := []) (settled : Bool := true) : State :=
  mk ([(REG_PSTATE_STATE, 4, 255), (REG_VSENSE_WINDOW, 32, 255), (REG_VSET_APPLIED, 1600, 255), (ADC_SPARE_STATE, 1, 15)] ++ fs)
    (fun b => (if settled then wSettled b else b).modW 15 (fun w => { w with arb := some 255 }))
def wGain (f : Ph → Ph := id) : State := mk [(PH_STATE_POPULATED, 1, 1087), (PH_STATE_COND, cParked, 1087), (PH_STATE_LOGICAL, 1023, 1087), (CFG_STRAP_BUILD, 1, 0)]
  (fun b => b.modP 1087 (fun p => f { p with drive := .off, last := some ⟨1087, 0, false, true, false, false⟩ }))
def wRegSt (st : Nat) (f : Rgn → Rgn := id) (fs : List (Fld × Nat × Nat) := []) (g : Block → Block := id) : State :=
  mk ([(REG_PSTATE_STATE, st, 255)] ++ fs) (fun b => g (b.modR 255 f))
def counts (n : Nat) : List RingCount := (List.range 272).map (fun _ => ⟨n, 20000⟩)
def wStop (step : Nat) (fs : List (Fld × Nat × Nat) := []) : State := wUp ([(REG_PSTATE_STATE, 4, 255)] ++ fs) (fun b => b.modThm (fun x => { x with stopStep := step, stopAt := 4 }))
def wClk (ready : List Fld) (fs : List (Fld × Nat × Nat) := []) (f : Clk → Clk := id) (g : Block → Block := id) : State :=
  mk ([(FLT_CFG_REACT, 1, srcENG_STUCK), (FLT_CFG_REACT, 1, srcCOLLAPSE)] ++ fs ++ ready.map (fun r => (r, 1, 0))) (fun b => g { b.modClk f with aonUp := true, vinGood := true }) (xcfg := 0x03E803E8)
def wForcing (ready : List Fld) : State := wClk ready [(PH_STATE_POPULATED, 1, 1023), (PH_STATE_COND, cSafe, 1023), (PH_STATE_LOGICAL, 1023, 1023), (REG_PSTATE_STATE, 4, 255)]
  (fun c => { c with forcing := true, failAt := 7, assertAll := true }) (fun b => b.modP 1023 (fun p => { p with saved := some cSwitching }))
def noFlash (sfdp : Bool) (dens : Nat) : Flash := { segs := [], sfdpOk := sfdp, density := dens }
def wLoad (f : Img → Img := id) : State := mk [] (fun b => (b.modImg (fun i => f { i with stage := 1, flashRdy := true, memTested := true })))
def wJournal (f : Img → Img := id) (fs : List (Fld × Nat × Nat) := []) : State := wUp ([(THM_STATUS_FLASH_OK, 1, 0)] ++ fs) (fun b => b.modImg f)
def wCommit : Commit := { ops := [.erase 65536, .program 65536 [1, 2]], opAt := some 3, kinds := 5, seq := 9, banks := 3, valid := 7, lens := [1, 2, 3, 4], crcs := [5, 6, 7, 8], recBank := 1, slot := 2 }
def wPmb (f : Img → Img := id) : State := wUp [] (fun b => b.modImg (fun i => f { i with devs := [0x40, 0x41, 0x42], start := [⟨0, 1, 1, 5⟩, ⟨1, 1, 1, 5⟩, ⟨2, 1, 1, 5⟩] }))
def ring (ty src : Nat) (arg : Nat := 5) (seq : Nat := 200) : Frame := { ty := ty, src := src, seq := seq, arg := arg, payload := (List.range 12).map (fun i => BitVec.ofNat 8 (17 * i + 3)) }
def wRingM (f : Hoop → Hoop := id) (fs : List (Fld × Nat × Nat) := []) : State :=
  wUp ([(HOOP_CFG_N, 8, 0), (HOOP_CFG_MEMBER_ID, 6, 0), (HOOP_CFG_ALLOC_ID, 6, 0), (HOOP_PACE_PGROUP, 5, 0), (CLK_STATUS_LANE_RDY, 1, 0)] ++ fs) (fun b => b.modHoop (fun h => f { h with bypOpen := true, cfgOk := true }))
def wTx (x : TxFrame) (fs : List (Fld × Nat × Nat) := []) (f : Hoop → Hoop := id) : State := wRingM (fun h => f { h with tx := [x], seq := 255 }) fs
def wTrace (f : Trc → Trc := id) (fs : List (Fld × Nat × Nat) := []) : State := mk ([(TRC_EXP_BASE_HI_SIZE_LOG2, 20, 0), (TRC_CTL_EXPORT, 1, 0)] ++ fs) (fun b => b.modTrc f)
def wEng (st : Nat) (f : Eng → Eng := id) (fs : List (Fld × Nat × Nat) := []) (g : Block → Block := id) : State :=
  wHint ([(ENG_STATUS_STATE, st, 0), (FLT_CFG_REACT, 1, srcENG_STUCK), (FLT_CFG_REACT, 1, srcENG_DEADLINE), (FLT_CFG_REACT, 1, srcDET_BROKEN), (ENG_STATUS_ARRAYS, 4, 0),(ENG_ARRAY_ORPHAN, 7, 0)] ++ fs) (fun b => g ((b.modEng f).modH 31 (fun h => { h with count := 1 })))

/-! The register port. -/

theorem wit_PlainRegisterWrite : mk.blk.Calm ∧ mk.blk.PlainWrite WV_WEAR_CFG_RON_MAX.base 0x20 ∧ WV_WEAR_CFG_RON_MAX.base % 4 = 0 ∧
    ownRule WV_WEAR_CFG_RON_MAX.base = false ∧ (findReg WV_WEAR_CFG_RON_MAX.base).any (fun d => 0x20 &&& d.w1c = 0) = true ∧
    mk.blk.PlainWrite 0x3FFFC 7 ∧ ownRule 0x3FFFC = false ∧ (findReg 0x3FFFC).isNone = true := by decide +kernel
theorem wit_PlainRegisterRead : mk.blk.Calm ∧ ENG_TICKNO_LO_VAL.base % 4 = 0 ∧ energyHalf (ENG_TICKNO_LO_VAL.base + 4) = false ∧
    0x20020 % 4 = 0 ∧ energyHalf (0x20020 + 4) = true ∧ 0x20021 % 4 ≠ 0 := by decide +kernel
theorem wit_GuardedRegisterWrites : mk.blk.Calm ∧ isSource 0 = true ∧ mk.blk.PlainWrite FLT_CFG_EN.base 2 ∧
    isSource srcTRC_LOSS = true ∧ mk.blk.PlainWrite (FLT_CFG_EN.base + 4 * srcTRC_LOSS) 2 ∧ mk.blk.PlainWrite CLK_GATE_FIO.base 0 := by decide +kernel
theorem wit_LowHalfReads : energyHalf (0x20020 + 4) = true ∧ energyHalf (0x229F8 + 4) = true := by decide +kernel
theorem wit_HaltRequest : mk.blk.Calm ∧ mk.blk.bit TRC_REPLAY_BUSY = false := by decide +kernel
theorem wit_MemoryReadStarts : mk.blk.PlainWrite ENG_MADDR_MEM.base 0x20007FFF ∧
    hostWord (Fld.get ENG_MADDR_MEM 0x20007FFF) (Fld.get ENG_MADDR_WORD 0x20007FFF) = true ∧
    mk.blk.PlainWrite ENG_MADDR_MEM.base 0x20008000 ∧
    hostWord (Fld.get ENG_MADDR_MEM 0x20008000) (Fld.get ENG_MADDR_WORD 0x20008000) = false := by decide +kernel
theorem wit_MemoryReadCompletes : wBusyRead.blk.eng.mread = some ⟨1, 32767⟩ := by decide +kernel
theorem wit_MemoryWrite : (wMemHalted.blk.PlainWrite (ENG_MDATA_DATA.base + 12) 0x80000001 ∧
      wMemHalted.blk.fld ENG_STATUS_STATE = eHalted ∧ wMemHalted.blk.fld ENG_MADDR_MEM = 1 ∧
      hostWord 1 (wMemHalted.blk.fld ENG_MADDR_WORD) = true) ∧
    (wMemRunning.blk.PlainWrite (ENG_MDATA_DATA.base + 12) 0x80000001 ∧ wMemRunning.blk.fld ENG_STATUS_STATE = eRunning ∧
      wMemRunning.blk.Mild srcMWR_REFUSED) := by decide +kernel
/-- What makes a swap request bad (R91). -/
def badSwap (s : State) (w l : Nat) : Prop :=
  weaveOfPhase l ≠ w ∨ 1024 ≤ l ∨ populatedIn s.blk.isV l = false ∨ (s.blk.serving l).any (fun p => s.blk.cond p = cSafe) = true ∨
    (∃ e ∈ (s.blk.W w).queue, e.lpos = l) ∨ s.blk.swapTarget w = some l
theorem wit_SwapRequest :
    (wSpares.blk.Calm ∧ wSpares.blk.PlainWrite WV_SWAP_REQ.base 0x80000000 ∧ ¬ badSwap wSpares 0 (Fld.get WV_SWAP_LPOS 0x80000000) ∧
      (wSpares.blk.idleSpares 0).isEmpty = false) ∧
    (wSpares.blk.PlainWrite WV_SWAP_REQ.base 0x87FF0000 ∧ badSwap wSpares 0 (Fld.get WV_SWAP_LPOS 0x87FF0000)) ∧
    (mk.blk.PlainWrite WV_SWAP_REQ.base 0x80000000 ∧ ¬ badSwap mk 0 0 ∧ (mk.blk.idleSpares 0).isEmpty = true ∧
      mk.blk.Mild srcPOOL_EMPTY) := by unfold badSwap; decide +kernel
theorem wit_GroupSleep : wGroup.blk.Calm ∧ wGroup.blk.PlainWrite (REG_GSLEEP_SLEEP.base + 4 * 31) 0xC0000000 ∧
    wGroup.blk.PlainWrite (REG_GSLEEP_SLEEP.base + 4 * 31) 0x10000000 := by decide +kernel
def wAsked (how : Nat) (f : Rgn → Rgn := id) : State := mk [(REG_GROUP_VALID, 1, 255), (REG_GROUP_GROUP, 31, 255), (REG_PSTATE_STATE, 4, 255),
  (REG_PSTATE_DEPTH, 2, 255)] (fun b => { (b.applyWrites).modR 255 f with gsleep := [(31, how)] })
theorem wit_GroupSleepTaken : (∀ s ∈ [wAsked 1, wAsked 1 (fun r => { r with busy := true }), wAsked 2 (fun r => { r with busy := true })],
      s.blk.bit IMG_STATUS_SAFE = false ∧ s.blk.groupOf 255 = some 31 ∧ s.blk.gsleep.get (fun _ => 0) 31 ≠ 0 ∧ s.blk.st 255 = sRun ∧
      s.blk.fld REG_PSTATE_DEPTH 255 ≠ 0 ∧ s.blk.wakeIgnored 255 = false) ∧
    ((wAsked 1).blk.R 255).busy = false ∧ ((wAsked 1 (fun r => { r with busy := true })).blk.R 255).busy = true ∧
    (wAsked 2).blk.gsleep.get (fun _ => 0) 31 = 2 ∧ wGroup.blk.gsleep.get (fun _ => 0) 31 = 0 := by decide +kernel
def wIn (st : Nat) : State := mk [(REG_GROUP_VALID, 1, 255), (REG_GROUP_GROUP, 31, 255), (REG_PSTATE_STATE, st, 255)] (fun b => b.applyWrites)
theorem wit_GroupWake : (∀ st ∈ [sDoze, sNap, sDark, sPrimed, sLeaving, sRun], (wIn st).blk.Calm ∧
      (wIn st).blk.PlainWrite (REG_GSLEEP_SLEEP.base + 4 * 31) 0xA0000000 ∧ (wIn st).blk.groupOf 255 = some 31 ∧
      (wIn st).blk.groupOf 254 = none ∧ (wIn st).blk.wakeIgnored 255 = false ∧ (wIn st).blk.st 255 = st ∧
      (wIn st).blk.clk.forcing = false ∧ (wIn st).blk.restarting = false ∧ ((wIn st).blk.R 255).capDark = false) := by decide +kernel

/-! Clocks and converters. -/

theorem wit_ClockSwitches : wStandby.blk.PlainWrite CLK_CTL_REF_AUTO.base 1 ∧ wStandby.blk.PlainWrite CLK_CTL_REF_AUTO.base 2 ∧
    wStandby.blk.clk.forcing = false ∧ wStandby.blk.standbyUp = true ∧
    wStandby.blk.bit CLK_STATUS_SVC_SRC = false ∧ wStandby.blk.clkReady kPLLE = true ∧
    mk.blk.PlainWrite CLK_CTL_REF_AUTO.base 1 ∧ mk.blk.PlainWrite CLK_CTL_REF_AUTO.base 2 ∧ mk.blk.clk.forcing = false ∧
    mk.blk.standbyUp = false ∧ mk.blk.bit CLK_STATUS_SVC_SRC = false ∧ mk.blk.clkReady kPLLE = false := by decide +kernel
theorem wit_PhaseAlignment : wXb.blk.PlainWrite CLK_PSYNC_EN.base 0x80000003 ∧ wXb.blk.isV = false ∧
    wXb.blk.fld CLK_XCFG_XB_10K = 1000 ∧ 14000 % 1000 = 0 ∧ wXb.blk.clkReady kXB = true ∧
    mk.blk.PlainWrite CLK_PSYNC_EN.base 0x80000003 ∧ mk.blk.fld CLK_XCFG_XB_10K < 1000 ∧
    wXbRef.blk.PlainWrite CLK_XCFG_XB_10K.base 5 ∧ wXbRef.blk.fld CLK_STATUS_REF = 1 ∧
    mk.blk.PlainWrite CLK_XCFG_XB_10K.base 5 ∧ mk.blk.bit CLK_PSYNC_EN = false ∧ mk.blk.fld CLK_STATUS_REF ≠ 1 := by decide +kernel
theorem wit_ReferenceSelection : mk.blk.PlainWrite ADC_REF_EXT_MV.base 1 ∧ mk.blk.PlainWrite ADC_REF_EXT_MV.base 0x40 := by decide +kernel
theorem wit_CalibrationPoints : (mk.blk.PlainWrite ADC_CAL_CTL_POINT.base 0xC0000FFF ∧ mk.blk.PlainWrite ADC_CAL_CTL_POINT.base 0x80000FFF ∧
      mk.blk.everyDark = true ∧ mk.blk.fld ENG_STATUS_STATE = eStopped ∧ mk.blk.bit ADC_CAL_CTL_CAL_BUSY = false) ∧
    (wGroup.blk.PlainWrite ADC_CAL_CTL_POINT.base 0xC0000FFF ∧ wGroup.blk.PlainWrite ADC_CAL_CTL_POINT.base 0x80000FFF ∧
      wGroup.blk.everyDark = false) := by decide +kernel
theorem wit_CalibrationResults : (means 0).length = 288 ∧ (means 32000).length = 288 ∧ (∀ m ∈ means 0, m.spread ≤ 8) ∧
    (∃ m ∈ wide, 8 < m.spread) ∧ wide.length = 288 ∧ (wCal false 0 false).blk.refSettled 3 = false ∧
    (∀ g, g < 4 → (wCal false 0).blk.refSettled g = true) ∧ (∀ g, g < 4 → (wCal true 0).blk.refSettled g = true) ∧
    (wCal false 0).blk.bit ADC_CAL_CTL_CAL_BUSY = true ∧ (wCal false 0).blk.adc.full = false ∧
    (wCal true 0).blk.bit ADC_CAL_CTL_CAL_BUSY = true ∧ (wCal true 0).blk.adc.full = true ∧
    calError 0 true (fun _ => 0) (means 0) ≠ 0 ∧ (wCal true 2000).blk.bit ADC_CAL_CTL_CAL_BUSY = true ∧
    calError 2000 true (fun _ => 0) (means 32000) = 0 := by decide +kernel

/-! The image and the journal. -/

theorem wit_Recharacterise : mk.blk.PlainWrite IMG_RCDATA_ENTRY_DATA.base 5 ∧ mk.blk.rcOpen = true ∧
    wGroup.blk.PlainWrite IMG_RCDATA_ENTRY_DATA.base 5 ∧ wGroup.blk.rcOpen = false ∧
    mk.blk.PlainWrite IMG_CTL_HOLD_DARK.base 0x80000000 ∧ mk.blk.bit IMG_STATUS_SAFE = false ∧ mk.blk.img.staged? = false ∧
    wStaged.blk.PlainWrite IMG_CTL_HOLD_DARK.base 0x80000000 ∧ wStaged.blk.bit IMG_STATUS_SAFE = false ∧ wStaged.blk.rcOpen = true ∧
    wStaged.blk.img.staged? = true := by decide +kernel
theorem wit_HoldDark : mk.blk.Calm ∧ mk.blk.PlainWrite IMG_CTL_HOLD_DARK.base 1 ∧ mk.blk.bit IMG_STATUS_SAFE = false ∧
    wSafeRun.blk.Calm ∧ wSafeRun.blk.PlainWrite IMG_CTL_HOLD_DARK.base 1 ∧ wSafeRun.blk.bit IMG_STATUS_SAFE = true ∧
    wSafeRun.blk.bit IMG_CTL_HOLD_DARK = false ∧ wSafeRun.blk.st 255 = sRun := by decide +kernel
theorem wit_PmbusHostTransfer : mk.blk.PlainWrite PMB_CTL_CMD.base pmbRead ∧ pmbRead.getLsbD 31 = true ∧ mk.blk.pmbRefused pmbRead = false ∧
    mk.blk.PlainWrite PMB_CTL_CMD.base 0x80000000 ∧ mk.blk.pmbRefused 0x80000000 = true := by decide +kernel

/-! The recorder. -/

theorem wit_RecorderModes : (mk.blk.PlainWrite TRC_CTL_MODE.base 0x40000000 ∧ Fld.get TRC_CTL_MODE 0x40000000 = modeRing ∧
      mk.blk.img.rcHold = false ∧ mk.blk.recordingOn = false ∧ mk.blk.PlainWrite TRC_CTL_MODE.base 0x80000000 ∧
      mk.blk.fld ENG_STATUS_STATE ≠ eHalted) ∧
    (wHalted.blk.PlainWrite TRC_CTL_MODE.base 0x80000000 ∧ wHalted.blk.fld ENG_STATUS_STATE = eHalted ∧ wHalted.blk.recordingOn = false ∧
      wHalted.blk.img.rcHold = false) ∧
    (wRing.blk.PlainWrite TRC_CTL_MODE.base 0 ∧ wRing.blk.recordingOn = true ∧ wRing.blk.fld TRC_CTL_MODE = modeRing ∧
      wRing.blk.PlainWrite TRC_CTL_MODE.base 0x40000001) := by decide +kernel
theorem wit_HaltedTraceWrites : wHalted.blk.PlainWrite TRC_TICKSET_HI_TICK_HI.base 0xFFFFFFFF ∧
    wHalted.blk.PlainWrite TRC_FLAGS_SLICE_FLAGS.base 0xA7 ∧ wHalted.blk.fld ENG_STATUS_STATE = eHalted ∧
    mk.blk.PlainWrite TRC_TICKSET_HI_TICK_HI.base 0xFFFFFFFF ∧ mk.blk.PlainWrite TRC_FLAGS_SLICE_FLAGS.base 0xA7 ∧
    mk.blk.fld ENG_STATUS_STATE ≠ eHalted := by decide +kernel
theorem wit_ReplayStart : (wReplay.blk.PlainWrite TRC_REPLAY_START.base 0x80000000 ∧
      wReplay.blk.trc.mem = [{ kind := kState, state := some stateRec }, { kind := kEnd }] ∧ wReplay.blk.fld ENG_STATUS_STATE = eHalted ∧
      wReplay.blk.fld TRC_CTL_MODE = 0 ∧ wReplay.blk.bit TRC_STATUS_REPLAYABLE = true ∧ wReplay.blk.arrays = stateRec.arrays) ∧
    (mk.blk.PlainWrite TRC_REPLAY_START.base 0x80000000 ∧ mk.blk.trc.mem = []) := by decide +kernel

/-! The fault collector. -/

theorem wit_ReportedCondition : flagOf srcUV = some (REG_STATUS_UV, true) ∧ mk.blk.Mild srcUV ∧ mk.blk.raisedInst srcUV 255 = false ∧
    mk.blk.srcEnabled srcUV = true ∧ flagOf srcRING_DROP = some (ENG_FLAGS_RING_DROP, false) ∧
    (mk [(FLT_CFG_EN, 0, srcRING_DROP)]).blk.Mild srcRING_DROP ∧
    (mk [(FLT_CFG_EN, 0, srcRING_DROP)]).blk.srcEnabled srcRING_DROP = false := by decide +kernel
theorem wit_ActingReactions : isClassS srcUV = false ∧
    ((wUp [(FLT_CFG_REACT, 4, srcUV)]).blk.srcEnabled srcUV = true ∧ (wUp [(FLT_CFG_REACT, 4, srcUV)]).blk.pendingSrc srcUV = false ∧
      (wUp [(FLT_CFG_REACT, 4, srcUV)]).blk.flt.step = 0 ∧ (wUp [(FLT_CFG_REACT, 4, srcUV)]).blk.reaction srcUV = 4) ∧
    (wReset.blk.srcEnabled srcUV = true ∧ wReset.blk.reaction srcUV = 3 ∧ wReset.blk.mayRestart = true ∧ wReset.blk.flt.resets = []) ∧
    (wThird.blk.srcEnabled srcUV = true ∧ wThird.blk.reaction srcUV = 3 ∧ wThird.blk.mayRestart = true ∧
      2 ≤ (wThird.blk.flt.resets.filter (fun t => wThird.blk.slo < t + 480000000)).length) := by decide +kernel
theorem wit_FaultClear : (wTwoUv.blk.Calm ∧ (∀ e ∈ wTwoUv.blk.flt.insts, e.2 < 2048) ∧
      wTwoUv.blk.PlainWrite FLT_CLEAR_SRC.base (clearWord srcUV 255) ∧ wTwoUv.blk.raisedInst srcUV 255 = true ∧
      wTwoUv.blk.clearAllowed srcUV 255 = true) ∧
    (wTwoUv.blk.PlainWrite FLT_CLEAR_SRC.base (clearWord srcSLO_STOP 0) ∧ wTwoUv.blk.raisedInst srcSLO_STOP 0 = true ∧
      wTwoUv.blk.clearAllowed srcSLO_STOP 0 = false) ∧
    (wTwoUv.blk.PlainWrite FLT_CLEAR_SRC.base (clearWord srcSLO_STOP 0x7FF) ∧
      Fld.get FLT_CLEAR_INDEX (clearWord srcSLO_STOP 0x7FF) = 0x7FF) := by decide +kernel
theorem wit_ParityCheck : wSlo.blk.Calm ∧ wSlo.blk.aonUp = true ∧ wSlo.blk.clkReady kSLO = true ∧ wSlo.blk.cfgParityOk = true ∧
    wSlo.blk.pendingSrc srcCOLL_PARITY = false := by decide +kernel
theorem wit_BlockEvents : mk.blk.Calm ∧ mk.blk.pendingSrc srcCOLL_PARITY = false ∧
    (mk [(FLT_CFG_REACT, 4, srcHW_TRIP)]).blk.reaction srcHW_TRIP ≠ 3 := by decide +kernel
/-! Hints. -/

theorem wit_Forecast : wAsleep.blk.Calm ∧ wAsleep.blk.hintReady = true ∧ hintField (hintWord 1 31 forecastBits) 63 60 = 1 ∧
    (hintWord 1 31 forecastBits).toNat % 2 ^ 31 = 0 ∧ wAsleep.blk.bit IMG_STATUS_SAFE = false ∧
    wAsleep.blk.groupOf 255 = some (hintGroup (hintWord 1 31 forecastBits)) ∧ wAsleep.blk.wakeIgnored 255 = false ∧
    wAsleep.blk.st 255 = sDoze ∧
    wAsleep.blk.exitLatency 255 sDoze wAsleep.blk.clk.stoppedCol + 530 < hintField (hintWord 1 31 forecastBits) 46 31 * 10 := by
  decide +kernel
theorem wit_Barriers : (wBars 4).blk.Calm ∧ (wBars 4).blk.hintReady = true ∧ (wBars 4).blk.bit IMG_STATUS_SAFE = false ∧ (wBars 4).blk.eng.clockStopped = false ∧
    (wBars 4).blk.groupOf 255 = some 31 ∧ hintGroup (hintWord 2 31 (255 * 2 ^ 47)) = 31 ∧ hintField (hintWord 2 31 (255 * 2 ^ 47)) 63 60 = 2 ∧
    (hintWord 2 31 (255 * 2 ^ 47)).toNat % 2 ^ 47 = 0 ∧ ((wBars 4).blk.H 31).openBars.length = 4 ∧
    ¬ (∃ e ∈ ((wBars 4).blk.H 31).openBars, e.1 = hintField (hintWord 2 31 (255 * 2 ^ 47)) 54 47) ∧
    (∃ e ∈ ((wBars 4).blk.H 31).openBars, e.1 = hintField (hintWord 3 31 (3 * 2 ^ 47)) 54 47) ∧
    hintField (hintWord 3 31 (3 * 2 ^ 47)) 63 60 = 3 := by decide +kernel
theorem wit_StaleBarrier : (∃ e ∈ ((wBars 3).blk.H 31).openBars, e.1 = 2 ∧ e.2 + 80000 ≤ (wBars 3).blk.slo) ∧
    (∀ e ∈ ((wBars 3).blk.H 31).openBars, e.1 = 3 → (wBars 3).blk.slo < e.2 + 80000) := by decide +kernel
theorem wit_TagAndLatency : wAsleep.blk.groupOf 255 = some (hintGroup (hintWord 4 31 (2 * 2 ^ 53))) ∧
    hintField (hintWord 4 31 (2 * 2 ^ 53)) 63 60 = 4 ∧ hintField (hintWord 4 31 (2 * 2 ^ 53)) 54 53 = 2 ∧
    (hintWord 4 31 (2 * 2 ^ 53)).toNat % 2 ^ 53 = 0 ∧ hintField (hintWord 5 31 0) 63 60 = 5 ∧
    hintField (hintWord 5 31 0) 54 39 * 100 < wAsleep.blk.exitLatency 255 sDoze wAsleep.blk.clk.stoppedCol := by decide +kernel
def wWaitsClk (n : Nat) : State := wHint [] (fun b => { b.modEng (fun e => { e with clockStopped := true }) with hintQ := List.replicate n (0, 0, 0) })
theorem wit_HintsWait : (wWaitsClk 63).blk.Calm ∧ (wWaitsClk 63).blk.hintReady = true ∧ (wWaitsClk 63).blk.bit IMG_STATUS_SAFE = false ∧
    (wWaitsClk 63).blk.eng.clockStopped = true ∧ (wWaitsClk 63).blk.hasRegions (hintGroup (hintWord 1 31 forecastBits)) = true ∧
    (wWaitsClk 64).blk.hintReady = false ∧ hintField (hintWord 1 31 forecastBits) 63 60 = 1 ∧
    (hintWord 1 31 forecastBits).toNat % 2 ^ 31 = 0 := by decide +kernel
theorem wit_ReservedHint : wHint.blk.Calm ∧ wHint.blk.hintReady = true ∧ wHint.blk.Mild srcHINT_BAD_TYPE ∧
    5 < hintField (hintWord 6 0 5) 63 60 ∧ hintField (hintWord 0 0 5) 63 60 = 0 ∧ hintField (hintWord 4 0 (3 * 2 ^ 53)) 63 60 = 4 ∧
    hintField (hintWord 4 0 (3 * 2 ^ 53)) 54 53 = 3 := by decide +kernel
theorem wit_ActivityFrames : wUp.blk.Calm ∧ wUp.blk.serviceUp = true ∧ wUp.blk.Mild srcACT_FRAME_ERR ∧
    (wUp [] (fun b => { b with inReset := true })).blk.Calm ∧ (wUp [] (fun b => { b with inReset := true })).blk.serviceHeld = true ∧
    (wUp [] (fun b => { b with inReset := true })).blk.aonUp = true := by decide +kernel
def wHeld : State := wUp [] (fun b => { b with red := { b.red with held := true } })
theorem wit_HeldCounters : (wUp.blk.Calm ∧ wUp.blk.serviceUp = true ∧ wUp.blk.img.accepted = true ∧
      wUp.blk.red.frameAt + 4000 ≤ max wUp.blk.now 4000 ∧ wUp.blk.Mild srcACT_STALE) ∧
    (wHeld.blk.Calm ∧ wHeld.blk.serviceUp = true ∧ wHeld.blk.red.held = true ∧ wHeld.blk.pfld PWR_CAP_FAST_LIMIT = 0 ∧
      wHeld.blk.slowCap = 0) := by decide +kernel

/-! The clock unit and the test access port. -/

def wLate : State := mk [(REG_PSTATE_STATE, 4, 255)] (fun b => b.modR 255 (fun r => { r with lateAt := some 9 }))
theorem wit_ClockHandshake : wLate.blk.Calm ∧ wLate.blk.st 255 = sRun ∧ (wLate.blk.R 255).lateAt = some 9 ∧ wLate.blk.Mild srcFIDX_LATE ∧
    9 + 1000 < max wLate.blk.now 1010 ∧ max wLate.blk.now 1009 ≤ 9 + 1000 := by decide +kernel
theorem wit_TestAccessPort : wSpares.blk.Calm ∧ wSpares.blk.Mild srcPOOL_EMPTY ∧ wSpares.blk.inService 1024 = true ∧ wSpares.blk.trstLow = false ∧
    (mk [] (fun b => { b with trstLow := true })).blk.trstLow = true ∧ (mk [] (fun b => { b with trstLow := true })).blk.Calm := by decide +kernel

/-! The engine's instructions. -/

theorem wit_SequencerInstructions : wRows.blk.eng.run = .tick ∧ wRows.blk.eng.loopLeft = 0 ∧ wInitRun.blk.eng.run = .init ∧
    wInitRun.blk.eng.loopLeft = 0 ∧ Instr.wf (.loop 1023 255) = true := by decide +kernel
theorem wit_LoopPasses : (wTick (fun e => { e with loopLeft := 2, loopEnd := 7, loopTop := 5 })).blk.eng.run ≠ .none ∧
    (wTick (fun e => { e with loopLeft := 2, loopEnd := 7, loopTop := 5 })).blk.eng.pc = 7 := by decide +kernel
def wMemRows : State := wTick (fun e => { rows e with sm := [(9 * 253, 7), (32000, 8)], cm := [(9 * 257, 3)] })
theorem wit_LoadsAndStores : wMemRows.blk.eng.run ≠ .none ∧ (⟨31, 1, 0xB, 3⟩ : MOp).ok = true ∧
    (∀ q, q < 4 → ∀ j ∈ rowsOf 0xB, wMemRows.blk.rowAddr q ⟨31, 1, 0xB, 3⟩ j < 654) := by decide +kernel
theorem wit_Arrays : wRows.blk.eng.run = .tick ∧ (⟨3, 1, 1, 0, 0, 0, 2, true⟩ : XOp).mvbOk = true ∧
    (⟨3, 1, 0, 0, 0, 0, 0, true⟩ : XOp).mvrOk = true ∧ (⟨3, 1, 0, 0, 0, 0, 0, false⟩ : XOp).mvpOk = true ∧
    (⟨3, 1, 0, 0, 0, 0, 0, true⟩ : XOp).mvwOk = true := by decide +kernel
theorem wit_ShadowMismatch : wRows.blk.Mild srcENG_ARRAY_MISMATCH ∧
    (wTick rows [(arrayState 4, 1, 0)]).blk.Mild srcENG_ARRAY_MISMATCH ∧ (wTick rows [(arrayState 4, 1, 0)]).blk.shadowing = true ∧
    (wTick rows [(arrayState 4, 2, 0)]).blk.Mild srcENG_ARRAY_MISMATCH ∧ (wTick rows [(arrayState 4, 2, 0)]).blk.shadowing = false := by
  decide +kernel
theorem wit_AccumulatorUnit : Instr.wf (.acrd ⟨2, 1, 0, 1, 5⟩) = true ∧ Instr.wf (.acxw ⟨2, 1, 0, 0, 5⟩) = true ∧
    Instr.wf (.redx ⟨2, 1, 0, 0, 0⟩) = true ∧ Instr.wf (.reda ⟨2, 1, 0, 0, 0⟩ [3, 1, 0, 2]) = true ∧
    3 < wRows.blk.fld ENG_ARRAY_ORPHAN := by decide +kernel
theorem wit_VectorArithmetic : (⟨2, 1, 0, 0, 0⟩ : ROp).binary = true ∧ (⟨2, 1, 2, 1, 0⟩ : ROp).binary = true ∧
    (⟨2, 1, 2, 2, 0⟩ : ROp).binary = true := by decide +kernel
theorem wit_SelectInstructions : Instr.wf (.vmini ⟨2, 1, 3, 0, 5⟩) = true ∧ Instr.wf (.vmini ⟨2, 1, 2, 0, 5⟩) = true ∧
    Instr.wf (.vcmp ⟨2, 1, 3, 1, 4⟩) = true ∧ Instr.wf (.vsel ⟨2, 1, 0, 0, 15⟩) = true := by decide +kernel
theorem wit_LaneMoves : Instr.wf (.vcvt ⟨2, 1, 0, 1, 0⟩) = true ∧ Instr.wf (.vcvt ⟨2, 1, 0, 0, 1⟩) = true ∧
    Instr.wf (.vxw ⟨2, 1, 0, 1, 0⟩) = true ∧ Instr.wf (.vsuml ⟨2, 1, 0, 1, 0⟩) = true ∧ Instr.wf (.prng ⟨2, 0, 0, 2, 0⟩) = true := by
  decide +kernel
theorem wit_TablesAndSnapshot : Instr.wf (.tlop ⟨2, 1, 0, 0, 0⟩ []) = true ∧ Instr.wf (.tluf ⟨2, 1, 0, 2, 15⟩ []) = true ∧
    Instr.wf (.rdsnp ⟨2, 0, 0, 0, 1⟩) = true ∧ Instr.wf (.rdhint ⟨2, 0, 0, 0, 1⟩) = true ∧ Instr.wf (.rdact ⟨2, 0, 0, 0, 1⟩) = true ∧
    Instr.wf (.rdasy ⟨2, 0, 0, 0, 1⟩) = true ∧ wRows.blk.bit TRC_REPLAY_BUSY = false ∧ wInitRun.blk.bit TRC_REPLAY_BUSY = false := by
  decide +kernel
def wQueueFull : State := wTick (fun e => { rows e with sendQ := List.replicate 8 (1, 2) })
theorem wit_OutputUnit : Instr.wf (.wrout ⟨0, 1, 0, 0, 6⟩) = true ∧ Instr.wf (.rsend ⟨0, 1, 0, 0, 6⟩ none) = true ∧
    wRows.blk.eng.sends.length + wRows.blk.eng.sendQ.length < 8 ∧
    8 ≤ wQueueFull.blk.eng.sends.length + wQueueFull.blk.eng.sendQ.length ∧ wQueueFull.blk.eng.sendQ ≠ [] ∧
    Instr.wf (.rsend ⟨0, 1, 0, 0, 6⟩ (some 24)) = true ∧ wQueueFull.blk.Mild srcRING_DROP := by decide +kernel

/-! Phases, the weave loop and the swap-in. -/

theorem wit_StageEvents : (wPhases 1).blk.populated 5 = true ∧ (wPhases 1).blk.isV = true ∧ (0x8009 : BitVec 16).getLsbD 15 = true ∧
    frameParityOk 0x8009 = false ∧ frameParityOk 0x8008 = true ∧ (wPhases 1).blk.cond 5 = cSafe ∧ (wPhases 1).blk.populated 1087 = true ∧
    (wPhases 1).blk.cond 1087 ≠ cSafe ∧ (wPhases 1).blk.cond 1087 ≠ cRetired ∧ (wPhases 1 [] wSettled).blk.refSettled 1 = true ∧
    (wPhases 1).blk.refSettled 1 = false ∧
    (wPhases 1 [] (fun b => b.modP 5 (fun p => { p with last := some { frameResult 5 0x8008 with code := 3 } }))).blk.isV = true := by decide +kernel
theorem wit_Rotation : (wRank.blk.W 15).periods < 2 ^ (wRank.blk.efld WV_PLAIT_ROT_LOG2 15 + 4) ∧
    2 ^ ((wRank (fun w => { w with periods := 2 ^ 19 })).blk.efld WV_PLAIT_ROT_LOG2 15 + 4) ≤ ((wRank (fun w => { w with periods := 2 ^ 19 })).blk.W 15).periods := by
  decide +kernel
theorem wit_SlotOffsets : wRank.blk.ranked 255 = [1022, 1023] ∧ (wRank.blk.ranked 255).Nodup ∧
    (∀ p, p ∈ wRank.blk.ranked 255 → (wRank.blk.P p).offset < 256) := by decide +kernel
theorem wit_FastLoop : wPhases.blk.Calm ∧ wPhases.blk.clk.forcing = false ∧ wPhases.blk.inReset = false ∧
    wPhases.blk.Milds [srcFAIL_SHORT, srcSTAGE_OT, srcFAIL_OPEN, srcSENSE_FAIL, srcPOOL_EMPTY] ∧
    wPhases.blk.reaction srcSHORT < 3 ∧ wPhases.blk.thm.stopStep = 0 := by unfold Block.Milds; decide +kernel
theorem wit_SwapStarts : wSwapQ.blk.Calm ∧ (wSwapQ.blk.W 15).run = none ∧
    (wSwapQ.blk.W 15).queue.find? wSwapQ.blk.eligible = some { lpos := 1023 } ∧ wSwapQ.blk.idleSpares 15 = [1087] ∧
    (wSwapQ sRun 1).blk.idleSpares 15 = [1086, 1087] ∧ wSwapQ.blk.forcedAll = false ∧ (wSwapQ.blk.P 1087).last = none ∧
    (wSwapQ sRun 0 true).blk.idleSpares 15 = [1087] ∧ ((wSwapQ sRun 0 true).blk.P 1087).last.any (·.zc) = true ∧ wSwapQ.blk.Mild srcPOOL_EMPTY := by decide +kernel
def sent (symbols : BitVec 6) : Block → Block := fun b => b.modP 1087 (fun p => { p with steerCmd := steerPulses symbols })
theorem wit_Steering : ((wSwap (sent (steerSymbols true 255))).blk.W 15).run.isSome = true ∧
    (wSwap (sent (steerSymbols true 255))).blk.fld WV_SWAP_STAGE 15 = stSelect ∧ ((wSwap (sent (steerSymbols true 255))).blk.W 15).spare = 1087 ∧
    ((wSwap (sent (steerSymbols true 255))).blk.P 1087).steerCmd ≠ [] ∧ steerParityOk (steerSymbols true 255 ^^^ 1) = false ∧
    steerParityOk (steerSymbols true 255) = true ∧
    ((wSwap (sent (steerSymbols true 255))).blk.P 1087).steerCmd = steerPulses (steerSymbols true 255) ∧
    steerParityOk (steerSymbols true 254) = true ∧
    ((wSwap (sent (steerSymbols true 255))).blk.P 1087).steerCmd ≠ steerPulses (steerSymbols true 254) := by decide +kernel
theorem wit_SwapStages : wSwap.blk.Calm ∧ (wSwap.blk.W 15).run.isSome = true ∧ (wSwap.blk.W 15).spare < 1088 ∧
    wSwap.blk.forcedAll = false ∧ (wSwap (zc true) stCalZero).blk.spareZero 15 = true ∧ (wSwap (zc false) stCalZero).blk.spareZero 15 = false ∧
    wPulse.blk.fld WV_SWAP_STAGE 15 = stCalPulse ∧ (wPulse.blk.W 15).run = some { lpos := 1023 } ∧ (wPulse.blk.W 15).ramp = 400 ∧
    (wPulse.blk.W 15).calLog.length = 100 ∧ wPulse.blk.calPulseOk 15 255 = true ∧ (wPulse true).blk.calPulseOk 15 255 = false ∧
    (wSwap id stCalPulse).blk.fld WV_SWAP_STAGE 15 = stCalPulse ∧ ((wSwap id stCalPulse).blk.W 15).ramp ≠ 400 ∧
    ((296 : Int) - ((wSwap id stCalZero).blk.P ((wSwap id stCalZero).blk.W 15).spare).zeroTest).natAbs ≤ 40 ∧
    roundTripOk 58 = true ∧ roundTripOk 59 = false ∧ ((-120 : Int) - (-100)).natAbs * 5 ≤ (-100 : Int).natAbs ∧
    (-100 : Int).natAbs < ((-121 : Int) - (-100)).natAbs * 5 := by decide +kernel
theorem wit_SwapFailures : (wSwap.blk.W 15).run = some { lpos := 1023 } ∧ wSwap.blk.inService (wSwap.blk.W 15).spare = true ∧
    wSwap.blk.cond (wSwap.blk.W 15).spare = cCalibrating ∧ wSwap.blk.forcedAll = false ∧ wSwap.blk.idleSpares 15 = [] ∧ wSwap.blk.Milds [srcCAL_FAIL, srcPOOL_EMPTY] ∧
    40 < ((600 : Int) - (wSwap.blk.P (wSwap.blk.W 15).spare).zeroTest).natAbs := by unfold Block.Milds; decide +kernel

/-! The droop path and sensing. -/

theorem wit_DroopRounds : BitVec.ofNat 4 15 &&& ~~~(BitVec.ofNat 4 (wRegion.blk.fld REG_STATUS_DET_MASK 255)) ≠ 0 ∧
    armedIn (wRegion.blk.st 255) = true ∧ wRegion.blk.extest = false ∧ (wRegion.blk.R 255).episode = false ∧
    (wEpisode.blk.R 255).episode = true ∧ (wEpisode.blk.R 255).rounds < wEpisode.blk.roundLimit (weaveOf 255) ∧
    ((wEpisode (fun r => { r with rounds := 16 })).blk.roundLimit (weaveOf 255) ≤ ((wEpisode (fun r => { r with rounds := 16 })).blk.R 255).rounds) ∧
    BitVec.ofNat 4 0 &&& ~~~(BitVec.ofNat 4 (wRegion.blk.fld REG_STATUS_DET_MASK 255)) = 0 ∧
    (wRank.blk.available 255 0 = [1022, 1023]) ∧ (wEpisode.blk.R 255).rounds = 1 := by decide +kernel
def wRises (f : Rgn → Rgn := id) : State := wClk [CLK_STATUS_PLLP_RDY] [(REG_PSTATE_STATE, 4, 255)] (fun c => { c with resumedAt := 20 }) (fun b => b.modR 255 f)
theorem wit_DroopEnds : wEpisode.blk.Calm ∧ (wEpisode.blk.R 255).rotDue = false ∧ (wEpisode.blk.R 255).episode = true ∧
    (wRises.blk.R 255).episode = false ∧ wRises.blk.clk.assertAll = false ∧
    max (wRises.blk.R 255).epStart wRises.blk.clk.resumedAt + 100 ≤ max wRises.blk.now 120 ∧
    max wRises.blk.now 119 < max (wRises.blk.R 255).epStart wRises.blk.clk.resumedAt + 100 ∧ wRises.blk.clk.forcing = false ∧
    wRises.blk.clkReady wRises.blk.activeLoop = true ∧ mk.blk.clkReady mk.blk.activeLoop = false := by decide +kernel
def wProbe (run : Nat) (clear : Bool) (v : Nat) : State :=
  wRegion (fun r => { r with probe := some 0, probeRun := run, clearProbe := clear, last16 := List.replicate 16 v })
def wProbeFree : State := wRegion (fun r => { r with clearProbe := true, last16 := List.replicate 16 8 })
theorem wit_LegProbes : wProbeFree.blk.Calm ∧ (wProbeFree.blk.setNow 1).probeFree 255 = true ∧ (mk.blk.setNow 1).probeFree 255 = false ∧
    ((wProbe 1 false 8).blk.R 255).probe = some 0 ∧ (wProbe 1 false 8).blk.Calm ∧
    max (wProbe 1 false 8).blk.now 1999 < ((wProbe 1 false 8).blk.R 255).probeAt + 2000 ∧
    ((wProbe 1 false 8).blk.R 255).probeAt + 2000 ≤ max (wProbe 1 false 8).blk.now 2000 ∧
    (wProbe 1 false 8).blk.sensingQuiet 255 = wProbeFree.blk.sensingQuiet 255 ∧ wProbeFree.blk.sensingQuiet 255 = true ∧
    (wRegion (fun r => { r with probe := some 0, episode := true })).blk.sensingQuiet 255 = false ∧
    ((wProbe 1 false 8).blk.R 255).clearProbe = false ∧ 0 + 128 < ((wProbe 1 false 9).blk.R 255).last16.sum ∧
    ¬ (0 + 128 < ((wProbe 1 false 8).blk.R 255).last16.sum) ∧ ((wProbe 1 true 8).blk.R 255).clearProbe = true := by decide +kernel
def wVolt : State := wRegion (fun r => { r with uvAt := some 10, raiseAt := some 10, crossed := 8 })
  [(FLT_CFG_REACT, 1, srcOV), (REG_VSENSE_VOUT, 900, 255), (REG_STATUS_OVC_MASK, 8, 255)]
theorem wit_VoltageFaults : wVolt.blk.Calm ∧ (BitVec.ofNat 4 (wVolt.blk.fld REG_STATUS_OVC_MASK 255)).getLsbD 3 = true ∧
    (BitVec.ofNat 4 (wVolt.blk.fld REG_STATUS_OVC_MASK 255)).getLsbD 0 = false ∧ wVolt.blk.reaction srcOV < 3 ∧
    (wVolt.blk.R 255).uvAt = some 10 ∧ wVolt.blk.st 255 = sRun ∧ 10 + 16000 ≤ max wVolt.blk.now 20010 ∧ wVolt.blk.Mild srcUV ∧
    (wVolt.blk.setNow 10000).detectorStuck 255 3 = true ∧ (wVolt.blk.setNow 9999).detectorStuck 255 3 = false ∧ wVolt.blk.Mild srcDET_DEAD ∧
    (wVolt.blk.R 255).raiseAt = some 10 ∧ 10 + 20000 ≤ max wVolt.blk.now 20010 ∧ wVolt.blk.Mild srcRAISE_SLOW := by decide +kernel
/-! The converters and the stages. -/

def wTarget : List (Fld × Nat × Nat) := [(REG_VSET_APPLIED, 1600, 255)]
theorem wit_RegionConversions : (wConv id [] false).blk.servedBy 255 = some 255 ∧ (wConv id [] false).blk.bit REG_STATUS_SENSE_SRC 255 = false ∧
    ((wConv id [] false).blk.R 255).convs + 1 < 64 ∧ (wConv id [] false).blk.refSettled 0 = false ∧
    (wConv id wTarget).blk.servedBy 255 = some 255 ∧ (wConv id wTarget).blk.refSettled 0 = true ∧
    ((wConv id wTarget).blk.R 255).convRun = 0 ∧ ((wConv id wTarget).blk.R 255).convBad = false ∧
    (wConv id wTarget).blk.checkRuns 255 = true ∧
    agree9 ((wConv id wTarget).blk.calibrated 255 1600) ((wConv id wTarget).blk.windowVolts 255) = true := by decide +kernel
def wNoSpare (m : Nat) : State := wConv (fun r => { r with convRun := 256 }) [(ADC_SPARE_STATE, 2, 15), (ADC_SPARE_SERVES, m, 15)]
theorem wit_ConverterArbiter : 256 ≤ ((wConv (fun r => { r with convRun := 256 })).blk.R 255).convRun ∧
    ((wConv (fun r => { r with convRun := 256 })).blk.R 255).convBad = false ∧
    (wConv (fun r => { r with convRun := 256 })).blk.fld ADC_SPARE_STATE (weaveOf 255) = 0 ∧
    1 < (wNoSpare 255).blk.fld ADC_SPARE_STATE 15 ∧ (wNoSpare 255).blk.fld ADC_SPARE_SERVES 15 = 255 ∧
    (wNoSpare 254).blk.fld ADC_SPARE_SERVES 15 ≠ 255 ∧ (wNoSpare 254).blk.Mild srcADC_NO_SPARE ∧ wArb.blk.refSettled 0 = true ∧
    (wArb [] false).blk.refSettled 0 = false ∧ ((wArb [] false).blk.W 15).arb = some 255 ∧
    (wArb.blk.W (weaveOf 255)).arb = some 255 ∧ wArb.blk.Milds [srcADC_FAIL, srcWIN_FAIL, srcADC_MISMATCH] ∧ wArb.blk.engineRunning = false ∧
    agree9 (wArb.blk.calibrated 271 1600) (wArb.blk.windowVolts 255) = true ∧
    agree9 (wArb.blk.calibrated 271 10) (wArb.blk.windowVolts 255) = false ∧
    agree9 (wArb.blk.calibrated 271 10) (wArb.blk.R 255).lastConv = true ∧
    agree9 (wArb.blk.calibrated 271 1000) (wArb.blk.windowVolts 255) = false ∧
    agree9 (wArb.blk.calibrated 271 1000) (wArb.blk.R 255).lastConv = false := by unfold Block.Milds; decide +kernel
theorem wit_StageSettings : wGain.blk.Calm ∧ wGain.blk.populated 1087 = true ∧ wGain.blk.stageIdle 1087 = true ∧
    (wGain (fun p => { p with drive := Drive.loop })).blk.stageIdle 1087 = false ∧
    gainReply 0x280 0x100 = some 0x800 ∧ gainReply 5 7 = none ∧ 0 < ((wGain (fun p => { p with gainTries := 2 })).blk.P 1087).gainTries ∧
    ((wGain (fun p => { p with gainTries := 2 })).blk.P 1087).gainTries < 3 ∧
    3 ≤ ((wGain (fun p => { p with gainTries := 3 })).blk.P 1087).gainTries ∧
    (wGain (fun p => { p with gainTries := 3 })).blk.stageIdle 1087 = true ∧
    ((wGain (fun p => { p with gainTries := 3 })).blk.W (weaveOfPhase 1087)).run = none ∧
    (wGain (fun p => { p with gainTries := 3 })).blk.inService 1087 = true ∧
    (wGain (fun p => { p with gainTries := 3 })).blk.Milds [srcCAL_FAIL, srcPOOL_EMPTY] ∧ wGain.blk.isV = true ∧
    wGain.blk.cond 1087 = cParked ∧ mk.blk.stageIdle 0 = false := by
  unfold Block.Milds; decide +kernel
def wBusy (settled : Bool) : State := mk [] (fun b => { (if settled then wSettled b else b) with adc := { b.adc with auxBusy := [(15, some (9, 0))] } })
def wPwm : State := mk [(ADC_AUXTRIG_MODE, 1, 15)] (fun b => { b with adc := { b.adc with
  auxEvAt := [(15, 9)], auxCfg := [(15, Fld.put ADC_AUXTRIG_MODE (resetWord (ADC_AUXTRIG_MODE.base + 60)) 1)] } })
def wExt : State := wConv id [(refSel 0, 1, 0), (refSel 3, 1, 0), (ADC_REF_EXT_MV, 1200, 0), (ADC_AUXTRIG_MODE, 1, 15)]
theorem wit_Auxiliaries : (wBusy true).blk.Calm ∧ ((wBusy true).blk.setNow 9).auxStarted 15 = true ∧ ((wBusy true).blk.setNow 8).auxStarted 15 = false ∧
    (wBusy true).blk.refSettled 3 = true ∧ (wBusy false).blk.refSettled 3 = false ∧ (wBusy true).blk.Mild srcAUX_FAIL ∧
    ((wBusy false).blk.setNow 9).auxStarted 15 = true ∧ wPwm.blk.auxFld ADC_AUXTRIG_MODE 15 = 1 ∧
    wPwm.blk.adc.auxEvAt.get (fun _ => 0) 15 + 1000 ≤ max wPwm.blk.now 1009 ∧
    max wPwm.blk.now 1008 < wPwm.blk.adc.auxEvAt.get (fun _ => 0) 15 + 1000 ∧
    ((1224 : Int) - (clampN 1000 1250 (wExt.blk.fld ADC_REF_EXT_MV) : Nat)).natAbs * 50 ≤ clampN 1000 1250 (wExt.blk.fld ADC_REF_EXT_MV) ∧
    clampN 1000 1250 (wExt.blk.fld ADC_REF_EXT_MV) < ((1225 : Int) - (clampN 1000 1250 (wExt.blk.fld ADC_REF_EXT_MV) : Nat)).natAbs * 50 ∧
    wExt.blk.bit ADC_CAL_CTL_CAL_BUSY = false ∧ (wCal false 0).blk.bit ADC_CAL_CTL_CAL_BUSY = true ∧
    (∃ g, g < 4 ∧ wExt.blk.fld (refSel g) = 1) ∧ wExt.blk.Mild srcREF_FAULT := by decide +kernel

/-! Region power states and resets. -/

def wSleeps (st c : Nat) : State := wRegSt st (fun r => { r with exitAt := some c })
def wWakes : State := wRegSt sWaking (fun r => { r with hdrEn := 0xFFFF, wakeAt := some 4, wakeLat := 5 }) [(REG_VSET_APPLIED, 800, 255)]
theorem wit_RegionExits : (∀ st ∈ [sDoze, sNap, sDark, sPrimed], ((wSleeps st 0).blk.R 255).exitAt = some 0 ∧ 0 ≤ (wSleeps st 0).blk.slo ∧
      (wSleeps st 0).blk.wakeIgnored 255 = false ∧ (wSleeps st 0).blk.st 255 = st) ∧ (wSleeps sDark 0).blk.clk.forcing = false ∧
    (wSleeps sPrimed 0).blk.restarting = false ∧ (wSleeps sNap 1).blk.slo < 1 ∧ wWakes.blk.readyNow 255 = true ∧
    (wSleeps sNap 1).blk.readyNow 255 = false ∧ (wWakes.blk.R 255).wakeAt = some 4 ∧
    4 + (wWakes.blk.R 255).wakeLat < max wWakes.blk.now 10 := by decide +kernel
def wSoft (f : Rgn → Rgn := id) (fs : List (Fld × Nat × Nat) := []) : State := wRegSt sSoftstart (fun r => f { r with ssAt := some 3 }) fs
theorem wit_SoftStart : wSoft.blk.Calm ∧ wSoft.blk.st 255 = sSoftstart ∧ wSoft.blk.clk.forcing = false ∧
    wSoft.blk.belowHalf 255 (wSoft.blk.reference 255) = false ∧
    (wSoft id [(FLT_CFG_REACT, 1, srcSHORT), (REG_VSET_APPLIED, 800, 255)]).blk.belowHalf 255 800 = true ∧
    (wSoft id [(FLT_CFG_REACT, 1, srcSHORT), (REG_VSET_APPLIED, 800, 255)]).blk.reaction srcSHORT < 3 ∧
    (wSoft id [(FLT_CFG_REACT, 1, srcSHORT), (REG_VSET_APPLIED, 800, 255)]).blk.thm.stopStep < 3 ∧
    (wSoft.blk.R 255).ssAt = some 3 ∧ 3 + 20000 ≤ max wSoft.blk.now 20003 ∧ wSoft.blk.Mild srcSS_TIMEOUT ∧
    wSoft.blk.meshSettled 255 = true ∧ (wSoft id [(REG_VSENSE_VOUT, 11, 255)]).blk.meshSettled 255 = false ∧
    (wSoft id [(REG_VSENSE_VOUT, 10, 255)]).blk.meshSettled 255 = true ∧
    (wSoft.blk.R 255).maskEnd = false ∧ wSoft.blk.Milds [srcDET_DEAD, srcOVC_DEAD] := by unfold Block.Milds; decide +kernel
def wDawn (waits stage : Nat) : State := wRegSt sDawn (fun r => { r with waits := waits, stage := stage, hdrEn := 0xF }) [(REG_VSENSE_VOUT, 900, 255)]
def fed (b : Block) : Block := ((b.put PH_STATE_COND cSwitching 1023).put PH_STATE_POPULATED 1 1023).modP 1023 (fun p => { p with hist := [2 ^ 40] })
def wHigh (waits stage : Nat) : State := wRegSt sDawn (fun r => { r with waits := waits, stage := stage, hdrEn := 0xF }) [(REG_VSENSE_VOUT, 900, 255)]
  (fun b => fed (b.modW 15 (fun w => { w with closed := true })))
/-- The feed of a weave is high (R154). -/
def high (b : Block) (w : Nat) : Prop := ((85 * b.feedRating w * 131072 : Nat) : Int) < b.feed w * 100
theorem wit_Dawn : (high (wHigh 8 3).blk 15 ∧ high (wHigh 6 3).blk 15 ∧ ¬ high (wDawn 8 3).blk 15 ∧ ((wHigh 8 3).blk.W 15).closed = true ∧
      ((wDawn 8 3).blk.W 15).closed = false ∧ ((wHigh 6 3).blk.R 255).waits < 7) ∧
    (∀ s ∈ [wDawn 8 3, wDawn 8 15, wDawn 7 3, wHigh 8 3, wHigh 6 3], s.blk.Calm ∧ s.blk.st 255 = sDawn ∧ (s.blk.R 255).resetDusk = false ∧
      s.blk.clk.forcing = false ∧ s.blk.extest = false ∧ s.blk.belowHalf 255 (s.blk.runTarget0 255) = false ∧ (s.blk.R 255).seven = false) ∧
    ((wDawn 7 3).blk.R 255).waits = 7 ∧ ((wDawn 8 3).blk.R 255).stage < 15 ∧ ((wDawn 8 15).blk.R 255).stage = 15 := by unfold high; decide +kernel
def wDusk (stage : Nat) (cap : Bool) (st : Nat := eStopped) : State :=
  wRegSt sDusk (fun r => { r with stage := stage, hdrEn := 1, capDark := cap }) [(ENG_STATUS_STATE, st, 0)]
theorem wit_Dusk : (∀ s ∈ [wDusk 15 false, wDusk 0 false, wDusk 0 true], s.blk.Calm ∧ s.blk.st 255 = sDusk ∧
      (s.blk.R 255).resetDusk = false ∧ s.blk.clk.forcing = false ∧ s.blk.thm.stopStep < 3 ∧ (s.blk.R 255).keptWake = false ∧
      s.blk.Mild srcCAPACITY) ∧ ((wDusk 15 false).blk.R 255).stage = 15 ∧ ((wDusk 0 true).blk.R 255).capDark = true ∧
    (wDusk 0 false).blk.engineRunning = false ∧ (wDusk 0 false eRunning).blk.engineRunning = true := by decide +kernel
def wForced (st : Nat) : State := wRegSt st (fun r => { r with hdrEn := 0xFFFF, downAt := some 3 }) [(THM_STATUS_STOP, 1, 0)]
  (fun b => { b.modThm (fun x => { x with stopStep := 4 }) with inReset := true, resetAt := 5 })
theorem wit_ForcedDusk : (wForced sRun).blk.Calm ∧ (wForced sRun).blk.inReset = true ∧
    (wForced sRun).blk.resetAt + (15 - 15) * 2500 ≤ max (wForced sRun).blk.now 5 ∧ (wForced sRun).blk.st 255 = sRun ∧
    (topSegment ((wForced sRun).blk.R 255).hdrEn).isSome = true ∧ ((wForced sRun).blk.R 255).resetDusk = false ∧
    ((wForced sRun).blk.R 255).downAt = some 3 ∧ (wForced sRun).blk.thm.stopStep = 4 ∧ (wForced sRun).blk.fld REG_FIDX_CUR 255 = 0 ∧
    (wForced sPrimed).blk.st 255 = sPrimed ∧ (wForced sPrimed).blk.bit THM_STATUS_STOP = true ∧
    ((wForced sPrimed).blk.R 255).downAt = some 3 ∧ (wForced sPrimed).blk.fld REG_FIDX_CUR 255 = 0 := by decide +kernel
def wVin (fs : List (Fld × Nat × Nat)) (step stage : Nat) : State :=
  mk fs (fun b => { b with vinGood := true, flt := { b.flt with step := step }, img := { b.img with stage := stage } })
theorem wit_PowerUp : ((wVin [] 0 0).blk.vinGood = true ∧ (wVin [] 0 0).blk.aonUp = false ∧ (wVin [] 0 0).blk.clkReady kFIO = false) ∧
    (wVin [(CLK_STATUS_FIO_RDY, 1, 0)] 0 0).blk.clkReady kFIO = true ∧ (wVin [] 2 0).blk.flt.step = 2 ∧
    ((wVin [] 0 1).blk.flt.step = 0 ∧ (wVin [] 0 1).blk.img.stage = 1 ∧ (wVin [] 0 1).blk.img.memTested = false ∧ (wVin [] 0 1).blk.Calm ∧
      (wVin [] 0 1).blk.img.rose ≤ max (wVin [] 0 1).blk.now 0) := by decide +kernel
def wInReset : State := { pending := [], blk := { (State.reset.blk.put CLK_STATUS_SLO_RDY 1).put PH_STATE_POPULATED 1 1087 with inReset := true } }
theorem wit_ChipReset : (wUp.blk.Calm ∧ wUp.blk.aonUp = true ∧ wUp.blk.inReset = false) ∧
    (wInReset.blk.Calm ∧ wInReset.blk.WindowWf ∧ wInReset.blk.inReset = true ∧ wInReset.blk.everyDark = true ∧
      wInReset.blk.clkReady kSLO = true) := by unfold Block.WindowWf; decide +kernel
/-! The thermal guard and the clocks. -/

theorem wit_TemperatureSample : wUp.blk.Calm ∧ wUp.blk.aonUp = true ∧ (counts 20000).length = 272 := by decide +kernel
def wAck : State := wStop 1 [(ENG_STATUS_STATE, 2, 0), (THM_STATUS_FLASH_OK, 1, 0)]
theorem wit_StopSteps : wAck.blk.Calm ∧ wAck.blk.thm.stopStep = 1 ∧ wAck.blk.engineRunning = true ∧ (wStop 1).blk.engineRunning = false ∧
    (wStop 1).blk.thm.stopStep = 1 ∧ (wStop 0).blk.thm.stopStep ≠ 1 ∧ wAck.blk.thm.stopAt + 150000 ≤ max wAck.blk.now 150004 ∧
    wAck.blk.Mild srcTHM_ACK_LATE ∧ wAck.blk.bit THM_STATUS_FLASH_OK = true ∧
    wAck.blk.thm.windowAt + 10000000 ≤ max wAck.blk.now 10000000 := by decide +kernel
def wSources : State := wClk [CLK_STATUS_SLO_RDY, CLK_STATUS_FIO_RDY, CLK_STATUS_XA_RDY]
theorem wit_SourceLoss : 2 ≠ wSources.blk.activeLoop ∧ wSources.blk.Calm ∧ wSources.blk.flt.waiting = [] ∧ wSources.blk.thm.stopStep = 0 ∧
    wSources.blk.gateOn 2 (wSources.blk.fld CLK_STATUS_MODE) = true ∧ wSources.blk.Milds [lossSrc 2, srcENG_STUCK] ∧
    wSources.blk.clkReady 2 = true ∧ wSources.blk.clkReady 3 = false ∧ wSources.blk.clkReady kSLO = true ∧
    (∀ i, i < 6 → wSources.blk.countOut (i + 1) ([3200, 80, 80, 9600, 35840, 35840].getD i 0) = false) ∧
    wSources.blk.countOut 2 ([3200, 87, 80, 9600, 35840, 35840].getD 1 0) = true := by unfold Block.Milds; decide +kernel
def wStopped (src : Nat) : State := wClk [CLK_STATUS_SLO_RDY, CLK_STATUS_PLLP_RDY] [(FLT_CFG_REACT, 1, src)]
theorem wit_SloStops : (wStopped srcSLO_STOP).blk.Calm ∧ (wStopped srcSLO_STOP).blk.Mild srcPOOL_EMPTY ∧
    (wStopped srcSLO_STOP).blk.reaction srcSLO_STOP < 3 := by decide +kernel
theorem wit_PhaseLoopLost : (wStopped srcPH_ACTIVE_LOSS).blk.Calm ∧ (wStopped srcPH_ACTIVE_LOSS).blk.clk.forcing = false ∧
    (wStopped srcPH_ACTIVE_LOSS).blk.Milds [lossSrc (wStopped srcPH_ACTIVE_LOSS).blk.activeLoop, srcPOOL_EMPTY] ∧
    (wStopped srcPH_ACTIVE_LOSS).blk.reaction srcPH_ACTIVE_LOSS < 3 := by unfold Block.Milds; decide +kernel
theorem wit_Failover : (wForcing []).blk.Calm ∧ (wForcing []).blk.clk.forcing = true ∧ (wForcing []).blk.clk.collapsed = false ∧
    (wForcing [CLK_STATUS_PLLS_RDY]).blk.standbyUp = true ∧ (wForcing []).blk.standbyUp = false ∧
    ((wForcing [CLK_STATUS_PLLS_RDY]).blk.P 1023).saved = some cSwitching ∧ (wForcing [CLK_STATUS_PLLS_RDY]).blk.cond 1023 = cSafe ∧
    (wForcing []).blk.clk.failAt + 2000 ≤ max (wForcing []).blk.now 2007 ∧ (wForcing []).blk.Mild srcCOLLAPSE ∧
    (wForcing []).blk.thm.stopStep < 3 := by decide +kernel
def wLost (ready : List Fld) (fs : List (Fld × Nat × Nat)) : State := wClk ready fs (fun c => { c with lost := 0x0C, readyAt := [(2, some 9), (3, some 9)] })
def wBack : State := wLost [CLK_STATUS_XA_RDY, CLK_STATUS_XB_RDY] [(CLK_STATUS_REF, 2, 0)]
def wReadyNext : State := wClk [CLK_STATUS_SLO_RDY, CLK_STATUS_FIO_RDY, CLK_STATUS_XA_RDY] [] (fun c => { c with inBand := [(3, 2)] })
theorem wit_SourceReturn : wReadyNext.blk.mayBeReady 3 = true ∧ wReadyNext.blk.clkReady 3 = false ∧ wReadyNext.blk.clk.svcStopped = false ∧
    wSources.blk.mayBeReady 3 = false ∧ wReadyNext.blk.Calm ∧ wBack.blk.clk.lost.getLsbD 3 = true ∧
    { wBack.blk with now := max wBack.blk.now 10000009 }.readyFor 3 1000000 = true ∧ wBack.blk.fld CLK_STATUS_REF ≠ 0 ∧
    { wBack.blk with now := max wBack.blk.now 10000009 }.readyFor kXA 10000000 = true ∧ wBack.blk.bit CLK_PSYNC_EN = false ∧
    (wLost [CLK_STATUS_XB_RDY] [(CLK_STATUS_REF, 3, 0), (CLK_CTL_REF_AUTO, 1, 0)]).blk.clkReady kXB = true ∧
    (wLost [CLK_STATUS_FIO_RDY] [(CLK_STATUS_REF, 3, 0)]).blk.clkReady kFIO = true ∧
    (wLost [CLK_STATUS_FIO_RDY] [(CLK_STATUS_REF, 3, 0)]).blk.clk.holdAt + 10000000 ≤ 10000009 := by decide +kernel
def wPsync (sup : Nat) : State := wClk [CLK_STATUS_XB_RDY] [(CLK_STATUS_REF, 1, 0), (CLK_PSYNC_EN, 1, 0), (CLK_STATUS_SSC_SUPPR, sup, 0)]
theorem wit_SpreadAndLock : (wPsync 0).blk.bit CLK_STATUS_SSC_SUPPR = false ∧ (wPsync 1).blk.bit CLK_STATUS_SSC_SUPPR = true ∧
    (wPsync 1).blk.bit CLK_PSYNC_EN = true ∧ (wPsync 1).blk.clkReady kXB = true ∧ (wPsync 1).blk.fld CLK_STATUS_REF = 1 := by decide +kernel

/-! The load, the journal and the PMBus. -/

theorem wit_ImageLoads : wLoad.blk.Calm ∧ wLoad.blk.img.stage = 1 ∧ wLoad.blk.img.flashRdy = true ∧ wLoad.blk.img.memTested = true ∧
    wLoad.blk.img.accepted = false ∧ wLoad.blk.img.limitRegs.all writeAllowed = true ∧ (noFlash true 5).density < 0x04000000 ∧
    headerOf (noFlash true 0x04000000) 0 = none ∧ headerOf (noFlash true 0x04000000) 1 = none := by decide +kernel
def wEnd (stage : Nat) (passed ok : Bool) : State :=
  wLoad (fun i => { i with stage := stage, allPassed := passed, digestOk := ok, trustDue := true, limitRegs := [WV_WEAR_CFG_RON_MAX.base] })
theorem wit_LoadEnds : (wEnd 2 true false).blk.Calm ∧ (wEnd 2 true false).blk.img.limitRegs.all writeAllowed = true ∧
    (wEnd 2 true false).blk.img.staged.writes.all (fun w => writeAllowed w.1) = true ∧ (wEnd 2 true false).blk.img.stage = 2 ∧
    (wEnd 2 true false).blk.img.allPassed = true ∧ (wEnd 2 true false).blk.img.digestOk = false ∧ (wEnd 2 true true).blk.img.digestOk = true ∧
    (wEnd 2 true true).blk.img.rose + 1200000000 ≤ max (wEnd 2 true true).blk.now 1200000000 ∧
    (wEnd 3 true true).blk.img.digestAt + 100000000 ≤ max (wEnd 3 true true).blk.now 100000000 ∧
    (wEnd 0 true true).blk.img.trustDue = true ∧ (wEnd 0 true true).blk.Mild srcIMG_UNTRUSTED := by decide +kernel
def wDue : State := wJournal (fun i => { i with pend := 5 })
def wRuns (ops : List FlashOp) : State := wJournal (fun i => { i with pend := 8, commit := some { wCommit with ops := ops } })
theorem wit_JournalCommit : wDue.blk.Calm ∧ { wDue.blk with now := max wDue.blk.now 9 }.commitMayStart = true ∧
    (wRuns wCommit.ops).blk.img.commit = some { wCommit with ops := [.erase 65536, .program 65536 [1, 2]] } ∧
    wCommit.opAt = some 3 ∧ (wRuns []).blk.Mild srcFLASH_FAIL ∧ 3 + opLimit (.erase 65536) ≤ max (wRuns []).blk.now 200000003 ∧
    max (wRuns []).blk.now 200000002 < 3 + opLimit (.erase 65536) ∧
    (wRuns []).blk.img.commit = some { wCommit with ops := [] } := by decide +kernel
def wTries (k : Nat) : State := wPmb (fun i => { i with tries := [(2, k)] })
theorem wit_PmbusTraffic : (wTries 1).blk.Calm ∧ (wTries 1).blk.img.devs.length ≤ 8 ∧ (wTries 1).blk.pmbRuns = true ∧
    (wPmb (fun i => { i with startDue := true })).blk.img.startDue = true ∧ (wTries 1).blk.img.startDue = false ∧
    (wTries 1).blk.Mild srcPMB_ERR ∧ (wTries 1).blk.Mild srcPMB_ALERT ∧ 0 < (wTries 1).blk.triesOf 2 ∧ (wTries 1).blk.triesOf 2 < 2 ∧
    2 ≤ (wTries 2).blk.triesOf 2 ∧ { (wTries 1).blk with now := 9 }.polled 0 = true ∧
    (wPmb (fun i => { i with xfer := some (pmbRead, 7) })).blk.img.xfer = some (pmbRead, 7) ∧
    (wPmb (fun i => { i with xfer := some (pmbRead, 7) })).blk.triesOf 8 = 0 := by decide +kernel

/-! The ring. -/

theorem wit_FramesReceived : wRingM.blk.Calm ∧ wRingM.blk.hoop.bypOpen = true ∧ (ring mPace 63).src ≠ wRingM.blk.me ∧
    (wRingM.blk.peer 63).seen.contains (ring mPace 63).seq = false ∧ (ring mPace 63).arg = wRingM.blk.fld HOOP_PACE_PGROUP ∧
    (ring mPace 63 4).arg ≠ wRingM.blk.fld HOOP_PACE_PGROUP ∧ wRingM.blk.Mild srcHOOP_NOTICE ∧
    ((wRingM (fun h => { h with peers := [(63, { seen := [3, 200] })] })).blk.peer 63).seen.contains (ring mProg 63).seq = true := by
  decide +kernel
def wSent (ty resends : Nat) : State := wTx ⟨ring ty 6, true, 3, resends, false⟩
def wBad (k : Nat) : State := wRingM (fun h => { h with badRun0 := k }) [(laneOk 1, 1, 0), (laneOk 0, 1, 0)]
theorem wit_OwnFrames : (wSent mProg 0).blk.Calm ∧ (wSent mProg 0).blk.hoop.bypOpen = true ∧ (ring mProg 6).src = (wSent mProg 0).blk.me ∧
    (wSent mProg 0).blk.hoop.tx.any (fun x => x.started && x.frame.seq = (ring mProg 6).seq) = true ∧
    wRingM.blk.hoop.tx.any (fun x => x.started && x.frame.seq = (ring mProg 6).seq) = false ∧ wRingM.blk.Mild srcHOOP_DOWN ∧
    (wBad 2).blk.badRun 0 < 3 ∧ 3 ≤ (wBad 3).blk.badRun 0 ∧ (wBad 3).blk.bit (laneOk 0) = true ∧ (wBad 3).blk.bit (laneOk 1) = true ∧
    (wBad 3).blk.Mild srcHOOP_LANE := by decide +kernel
def wWaits (sent : List (Nat × Nat)) : State := wTx ⟨ring mTickSync 6, false, 3, 0, false⟩ [] (fun h => { h with sentLog := sent })
def wRepeat : State :=
  let s := wRingM (fun h => { h with wasCapped := true, paceAt := some 0 }) [(HOOP_RATE_SENT, 700, 0)]
  { s with blk := { s.blk with flt := { step := 2 } } }
theorem wit_RingBuffer : (wSent mProg 3).blk.Calm ∧
    (∀ r ∈ [0, 3], (wSent mProg r).blk.hoop.tx.find? (fun y => y.started && y.frame.seq = (ring mProg 6).seq) =
      some ⟨ring mProg 6, true, 3, r, false⟩) ∧ 3 + 2 * (wSent mProg 3).blk.turn ≤ max (wSent mProg 3).blk.now 8803 ∧
    max (wSent mProg 3).blk.now 8802 < 3 + 2 * (wSent mProg 3).blk.turn ∧
    (wWaits []).blk.hoop.tx = [] ++ ⟨ring mTickSync 6, false, 3, 0, false⟩ :: [] ∧
    { (wWaits []).blk with now := 8802 }.mayStart ⟨ring mTickSync 6, false, 3, 0, false⟩ = true ∧
    { (wWaits [(mTickSync, 8000)]).blk with now := 8802 }.mayStart ⟨ring mTickSync 6, false, 3, 0, false⟩ = false ∧
    { (wWaits []).blk with now := 8802 }.paceRepeats = false ∧ { wRepeat.blk with now := 70400 }.paceRepeats = true ∧
    wRepeat.blk.Calm ∧ wRepeat.blk.hoop.bypOpen = true ∧ wRepeat.blk.hoop.tx.length < 16 := by decide +kernel
def wLanes : State := wRingM id [(laneOk 1, 1, 0), (laneOk 0, 1, 0)]
theorem wit_RingLanes : wLanes.blk.Calm ∧ wLanes.blk.Mild srcHOOP_LANE ∧ wLanes.blk.fld HOOP_STATUS_ACT_LANE = 0 ∧
    wLanes.blk.bit (laneOk 1) = true ∧ wLanes.blk.bit (laneOk 0) = true ∧ wRingM.blk.bit (laneOk 0) = false ∧
    wRingM.blk.fld HOOP_STATUS_ACT_LANE = 0 := by decide +kernel
theorem wit_RingSending : wRingM.blk.Calm ∧ wRingM.blk.hoop.bypOpen = true ∧ wRingM.blk.hoop.tx.length < 16 ∧
    (wRingM (fun h => { h with acting := true })).blk.hoop.acting = true ∧ wRingM.blk.PlainWrite HOOP_CTL_LEAVE.base 1 ∧
    wRingM.blk.PlainWrite PWR_CAP_SLOW_LIMIT.base 0x10005 ∧ wUp.blk.hoop.bypOpen = false ∧ wUp.blk.PlainWrite PWR_CAP_SLOW_LIMIT.base 5 ∧
    wRingM.blk.PlainWrite HOOP_CTL_LEAVE.base 0 ∧ wRingM.blk.PlainWrite HOOP_ALLOC_ENT.base 5 := by decide +kernel
def wAlloc (acting : Bool) : State := wRingM (fun h => { h with
  acting := acting, floors := (List.range 8).map (fun i => (i, 100)), maxes := (List.range 8).map (fun i => (i, 3000)), budget := some (9, 9) })
  [(HOOP_ALLOC_ENT, 9000, 0)]
def wJoin (opened : Bool) : State := wRingM (fun h => { h with bypOpen := opened, fellAt := some 9 })
theorem wit_RingAllocation : (wAlloc true).blk.Calm ∧ (wAlloc true).blk.hoop.acting = true ∧ (wAlloc true).blk.hoop.bypOpen = true ∧
    (wAlloc true).blk.hoop.allocAt = none ∧ (wAlloc false).blk.hoop.cfgOk = true ∧
    (wAlloc false).blk.me = (wAlloc false).blk.fld HOOP_CFG_ALLOC_ID ∧
    max (wAlloc false).blk.hoop.openAt ((wAlloc false).blk.hoop.budHeard.getD 0) + 16 * (wAlloc false).blk.turn ≤ max (wAlloc false).blk.now 70400 ∧
    (wAlloc false).blk.hoop.budget = some (9, 9) ∧ (wAlloc false).blk.Mild srcHOOP_HOLD ∧
    9 + (wAlloc false).blk.turn < max (wAlloc false).blk.now 4410 ∧ (wAlloc false).blk.hoop.backAt = none ∧
    (wAlloc false).blk.Mild srcHOOP_DOWN ∧ (wAlloc false).blk.hoop.openAt + 3 * (wAlloc false).blk.turn ≤ max (wAlloc false).blk.now 13200 ∧
    (wJoin false).blk.mayJoin = true ∧ (wJoin false).blk.hoop.bypOpen = false ∧ (wJoin false).blk.hoop.fellAt = some 9 := by decide +kernel
def wMissed (halt : Nat) : State := wEng eRunning (fun e => { e with
  run := .tick, twaitAt := some 999, outCom := [(3, 4)], outBuf := [(3, 5)], smPend := [(0, some 5)], sm := [(2, 7)] }) [(ENG_CTL_HALT, halt, 0)]
theorem wit_MissedTick : (wMissed 0).blk.Calm ∧ (wMissed 0).blk.fld ENG_STATUS_STATE = eRunning ∧ (wMissed 0).blk.tickLate = true ∧
    (wMissed 0).blk.tickSpoiled = false ∧ (wMissed 0).blk.Milds [srcENG_DEADLINE, srcDET_BROKEN, srcENG_STUCK, srcSENSE_CRACK, srcTRC_LOSS, srcCAPACITY] ∧
    (wMissed 0).blk.Awake ∧ (wMissed 0).blk.bit ENG_CTL_HALT = false ∧ (wMissed 1).blk.tickLate = true ∧ (wMissed 1).blk.tickSpoiled = false ∧
    (wMissed 1).blk.bit ENG_CTL_HALT = true := by decide +kernel
def wDone : State := wEng eRunning (fun e => { e with
  run := .none, twaitAt := some 100, wrote := [0, 1, 2, 3, 4, 5, 6], outCom := [(3, 4)], outBuf := [(outKey 3 0 7, 500)],
  smPend := [(0, some 5), (1023, some 1)], sm := [(2, 7)] }) [(ENG_CTL_HALT, 1, 0), (REG_PSTATE_STATE, 4, 7)]
theorem wit_CommittedTick : wDone.blk.Calm ∧ wDone.blk.fld ENG_STATUS_STATE = eRunning ∧ wDone.blk.tickAborts = false ∧
    wDone.blk.bit ENG_CTL_HALT = true ∧ wDone.blk.eng.smPend.wf (fun _ => none) = true ∧
    wDone.blk.Milds [srcENG_PROG_EVENT, srcSENSE_FAIL, srcWEAR_RON, srcWEAR_SENSE, srcPOOL_EMPTY, srcSENSE_CRACK, srcTRC_LOSS, srcCAPACITY] ∧
    wDone.blk.st 7 = sRun ∧ wDone.blk.thm.stopStep = 0 ∧ wDone.blk.clk.forcing = false ∧ wDone.blk.clk.issueHold = 0 := by decide +kernel
def wInit : State := wEng eStopped id [(CLK_STATUS_PLLE_RDY, 1, 0)]
theorem wit_InitStarts : wInit.blk.img.accepted = true ∧ wInit.blk.bit IMG_STATUS_SAFE = false ∧ wInit.blk.fld ENG_STATUS_STATE = eStopped ∧
    wInit.blk.flt.step = 0 ∧ wInit.blk.clkReady kPLLE = true ∧ wInit.blk.inReset = false ∧ wInit.blk.Mild srcENG_ARRAY_FAIL ∧
    wInit.blk.img.wear.any (fun e => e.kind = 3) = false ∧
    (∀ a, a < 5 → [true, true, true, false, true].getD a true = decide (a ≠ 3)) ∧
    3 ≤ ((List.range 5).filter (fun a => !([false, true, false, true, false] : List Bool).getD a true)).length := by decide +kernel
theorem wit_SafeModeCommits : wSafeRun.blk.Calm ∧ wSafeRun.blk.bit IMG_STATUS_SAFE = true ∧ wSafeRun.blk.inReset = false ∧
    wSafeRun.blk.thm.stopStep = 0 ∧ wSafeRun.blk.clk.forcing = false ∧ wSafeRun.blk.clk.issueHold = 0 ∧
    wUp.blk.Calm ∧ wUp.blk.bit IMG_STATUS_SAFE = false := by decide +kernel
def wScrub (left st : Nat) : State := wEng st (fun e => { e with
  sm := [(5, 7)], remapDue := [⟨1, 5⟩, ⟨4, memWords 4 - 1⟩], corrAt := [(wordElem 0 5, some 3)] }) 
  ([(FLT_ROWS_LEFT, left, 0), (FLT_ROWS_LEFT, left, 1), (FLT_ROWS_LEFT, left, 4)] ++ [srcMEM_UE, srcMEM_SPARE_LOW, srcMEM_SPARE_OUT].map (fun s => (FLT_CFG_REACT, 1, s)))
theorem wit_Scrubbing : (wScrub 1 eRunning).blk.Calm ∧ 0 < memWords 4 ∧ 5 < memWords 0 ∧ 5 < memWords 1 ∧
    (wScrub 1 eRunning).blk.eng.corrAt.get (fun _ => none) (wordElem 0 5) = some 3 ∧ max (wScrub 1 eRunning).blk.now 9 ≤ 3 + 1000000000 ∧
    (wScrub 1 eRunning).blk.eng.corrAt.get (fun _ => none) (wordElem 1 5) = none ∧
    (wScrub 1 eRunning).blk.eng.remapDue.contains ⟨0, 5⟩ = false ∧ (wScrub 1 eRunning).blk.eng.copied.contains ⟨0, 5⟩ = false ∧
    (wScrub 1 eRunning).blk.fld FLT_ROWS_LEFT 0 ≠ 0 ∧ (wScrub 1 eRunning).blk.Milds [srcMEM_UE, srcMEM_SPARE_LOW, srcMEM_SPARE_OUT] ∧
    (wScrub 1 eRunning).blk.eng.remapDue.contains ⟨4, memWords 4 - 1⟩ = true ∧ (wScrub 1 eRunning).blk.fld FLT_ROWS_LEFT 4 ≠ 0 ∧
    (wScrub 0 eHalted).blk.fld FLT_ROWS_LEFT 4 = 0 ∧ (wScrub 0 eHalted).blk.fld ENG_STATUS_STATE ≠ eRunning := by decide +kernel
/-! Further clauses of the claims. -/

theorem wit_StepKeeps : State.reset.blk.WindowWf ∧ State.reset.blk.Bounded ∧ step State.reset = .next State.reset := by
  refine ⟨by unfold Block.WindowWf; decide +kernel, ⟨by decide +kernel, fun _ => Nat.zero_le 4, by decide +kernel, by decide +kernel, by decide +kernel⟩, rfl⟩

def wHotDone : State := mk [(THM_STATUS_STOP, 1, 0)] (fun b => { b with thm := { b.thm with thr := 10, tg := [(255, 400 * 110)] } })
def wMildOvRun : State := mk [(FLT_CFG_REACT, 1, srcOV), (FLT_CFG_REACT, 1, srcSHORT), (ENG_STATUS_STATE, 2, 0)]
def twoPhases : List (Fld × Nat × Nat) := [(CFG_STRAP_BUILD, 1, 0), (REG_PSTATE_STATE, 4, 255), (ADC_AUX_VALUE, 2000, 3)] ++
  [1020, 1021].flatMap (fun p => [(PH_STATE_POPULATED, 1, p), (PH_STATE_COND, cSwitching, p), (PH_STATE_LOGICAL, p, p)])
def wDuty : State := mk (twoPhases ++ [(REG_VSET_APPLIED, 800, 255), (REG_VSET_TARGET, 800, 255), (REG_VSENSE_VOUT, 800, 255)])
def wDutyHot (v : Nat) : State := mk (twoPhases ++ [(REG_VSET_APPLIED, 800, 255), (REG_VSET_TARGET, 800, 255), (REG_VSENSE_VOUT, v, 255)])
  (fun b => b.modP 1020 (fun p => { p with hist := [2 ^ 40] }))
def wNoSpare0 : State := wConv (fun r => { r with convRun := 256 }) [(ADC_SPARE_STATE, 2, 15), (ADC_SPARE_SERVES, 255, 15)]
def wSelTrig : State := mk [(CFG_STRAP_BUILD, 1, 0), (PH_STATE_POPULATED, 1, 1087), (PH_STATE_COND, cCalibrating, 1087),
  (PH_STATE_LOGICAL, noLogical, 1087), (WV_SWAP_STAGE, stSelect, 15)]
  (fun b => (b.modP 1087 (fun p => { p with drive := .off, last := some ⟨1087, 0, false, true, false, false⟩ })).modW 15
    (fun w => { w with run := some { lpos := 1023 }, spare := 1087 }))
def wBusy0 (i : Nat) : State := mk [] (fun b => { (wSettled b) with adc := { b.adc with auxBusy := [(i, some (9, 0))] } })
def wPmb1 : State := wPmb (fun i => { i with tries := [(2, 1)] })
def wJournal0 (ops : List FlashOp) : State := wJournal (fun i => { i with pend := 8, commit := some { wCommit with ops := ops } })
def wEnd0 (stage : Nat) : State :=
  wLoad (fun i => { i with stage := stage, allPassed := true, digestOk := true, trustDue := true, limitRegs := [WV_WEAR_CFG_RON_MAX.base] })
def wBad0 : State := wRingM id [(laneOk 0, 1, 0)]
def wAllocAt (a : Nat) : State := wRingM (fun h => { h with acting := true, allocAt := some a, floors := (List.range 8).map (fun i => (i, 100)), maxes := (List.range 8).map (fun i => (i, 3000)), peers := [(2, { share := 4000 })] }) [(HOOP_ALLOC_ENT, 9000, 0)]
def wBackup : State := wRingM id [(HOOP_CFG_ALLOC_ID, 1, 0), (HOOP_CFG_BACKUP_VALID, 1, 0), (HOOP_CFG_BACKUP_ID, 6, 0)]
def wDone0 (halt st : Nat) (f : Eng → Eng) (fs : List (Fld × Nat × Nat) := []) (g : Block → Block := id) : State := wEng eRunning (fun e => f { e with
  run := .none, twaitAt := some 100, wrote := [0, 1, 2, 3, 4, 5, 6], outCom := [(3, 4)], outBuf := [(outKey 3 0 7, 500)] })
  ([(ENG_CTL_HALT, halt, 0), (REG_PSTATE_STATE, st, 255)] ++ fs) g
/-- What the claims on a committed tick ask of a block. -/
abbrev commits0 (b : Block) : Prop :=
  b.Calm ∧ b.fld ENG_STATUS_STATE = eRunning ∧ b.tickAborts = false ∧ b.trc.spoiled = false ∧
    ∀ src ∈ [srcENG_PROG_EVENT, srcSENSE_FAIL, srcWEAR_RON, srcWEAR_SENSE, srcPOOL_EMPTY, srcSENSE_CRACK, srcTRC_LOSS, srcCAPACITY], b.Mild src
theorem wit_RecharacteriseEntry : mk.blk.Calm ∧ mk.blk.PlainWrite IMG_RCADDR_ENTRY.base 0 ∧ mk.blk.rcOpen = true ∧
    mk.blk.PlainWrite IMG_RCADDR_ENTRY.base 5 ∧ wGroup.blk.Calm ∧ wGroup.blk.PlainWrite IMG_RCADDR_ENTRY.base 5 ∧
    wGroup.blk.rcOpen = false := by decide +kernel
def wNoClock : State := wUp [(FLT_CFG_REACT, 4, srcUV)] (fun b => b.modClk (fun c => { c with svcStopped := true }))
theorem wit_WaitingReaction : isClassS srcUV = false ∧ wNoClock.blk.srcEnabled srcUV = true ∧ wNoClock.blk.pendingSrc srcUV = false ∧
    wNoClock.blk.flt.step = 0 ∧ wNoClock.blk.clk.svcStopped = true ∧ wUp.blk.clk.svcStopped = false := by decide +kernel
theorem wit_FlagWrites : (wFull.blk.Calm ∧ wFull.blk.PlainWrite TRC_STATUS_FULL.base 0x20000000 ∧ ownRule TRC_STATUS_FULL.base = false ∧
      (findReg TRC_STATUS_FULL.base).any (fun d => d.w1c.getLsbD 29 &&
        (List.range 32).all (fun i => !(0x20000000#32 &&& d.w1c).getLsbD i || (flagSource TRC_STATUS_FULL.base i).isNone)) = true ∧
      clearsLater TRC_STATUS_FULL.base = false) ∧
    (wGroup.blk.Calm ∧ wGroup.blk.PlainWrite (REG_PSTATE_STATE.base + 1020) 0x800000 ∧ ownRule (REG_PSTATE_STATE.base + 1020) = false ∧
      (findReg (REG_PSTATE_STATE.base + 1020)).any (fun d => d.w1c.getLsbD 23 &&
        (List.range 32).all (fun i => !(0x800000#32 &&& d.w1c).getLsbD i || (flagSource (REG_PSTATE_STATE.base + 1020) i).isNone)) = true ∧
      clearsLater (REG_PSTATE_STATE.base + 1020) = true) ∧
    (wHot.blk.bit TRC_REPLAY_BUSY = false ∧ wHot.blk.flt.insts = [(srcTHM_STOP, 0)] ∧ wHot.blk.allCool = true) ∧
    (wHotNow.blk.bit TRC_REPLAY_BUSY = false ∧ wHotNow.blk.standingOf srcTHM_STOP = [0] ∧ wHotNow.blk.allCool = false) ∧
    (wHotDone.blk.standingOf srcTHM_STOP = [] ∧ wHotDone.blk.allCool = false) := by decide +kernel
theorem wit_SourceFlagWrites : (wTwoUv.blk.Calm ∧ (REG_STATUS_UV.base + 1020) % 4 = 0 ∧ ownRule (REG_STATUS_UV.base + 1020) = false ∧
      (findReg (REG_STATUS_UV.base + 1020)).any (fun d => d.w1c.getLsbD 30) = true ∧
      flagSource (REG_STATUS_UV.base + 1020) 30 = some (srcUV, some 255) ∧ wTwoUv.blk.bit TRC_REPLAY_BUSY = false ∧
      wTwoUv.blk.raisedInst srcUV 255 = true ∧ wUp.blk.standing srcUV 255 = false) ∧
    (ownRule CLK_MON_SLO_STOP.base = false ∧ (findReg CLK_MON_SLO_STOP.base).any (fun d => d.w1c.getLsbD CLK_MON_SLO_STOP.lo) = true ∧
      flagSource CLK_MON_SLO_STOP.base CLK_MON_SLO_STOP.lo = some (srcSLO_STOP, none) ∧ wTwoUv.blk.standingOf srcSLO_STOP ≠ []) ∧
    (∀ n, wTwoUv.blk.clearAllowed srcSLO_STOP n = false) ∧
    (flagSource ENG_FLAGS_RING_DROP.base ENG_FLAGS_RING_DROP.lo = some (srcRING_DROP, none) ∧ ownRule ENG_FLAGS_RING_DROP.base = false ∧
      (findReg ENG_FLAGS_RING_DROP.base).any (fun d => d.w1c.getLsbD ENG_FLAGS_RING_DROP.lo) = true ∧
      (wPend [(srcRING_DROP, 0)]).blk.standingOf srcRING_DROP ≠ [] ∧ mk.blk.standingOf srcRING_DROP = [] ∧ srcRING_DROP ≠ srcTHM_STOP) ∧
    (∀ n, (wPend [(srcRING_DROP, 0)]).blk.clearAllowed srcRING_DROP n = true) :=
  ⟨by decide +kernel, by decide +kernel, fun _ => rfl, by decide +kernel, fun _ => rfl⟩
theorem wit_WarmResetRequest : wReset.blk.Calm ∧ wReset.blk.PlainWrite FLT_CTL_BRESET.base 1 ∧ wReset.blk.mayRestart = true ∧ mk.blk.Calm ∧
    mk.blk.PlainWrite FLT_CTL_BRESET.base 1 ∧ mk.blk.mayRestart = false ∧ mk.blk.PlainWrite FLT_CTL_BRESET.base 0 := by decide +kernel
theorem wit_RegionEvents : (∀ s ∈ [wMildOv, wMildOvRun], s.blk.Calm ∧ s.blk.thm.stopStep < 3 ∧ s.blk.reaction srcOV < 3 ∧
    s.blk.reaction srcSHORT < 3) ∧ wMildOv.blk.engineRunning = false ∧ wMildOvRun.blk.engineRunning = true := by decide +kernel
def wReq (st descent depth : Nat) : State := wRegSt st (fun r => { r with descent := descent, depth := depth })
  [(ENG_STATUS_STATE, 2, 0), (REG_VSET_APPLIED, 800, 255)]
theorem wit_RequestWakes : (∀ st ∈ [sDoze, sNap, sPrimed, sDark], (wReq st 0 0).blk.Calm ∧ (wReq st 0 0).blk.wakeIgnored 255 = false ∧
      (wReq st 0 0).blk.st 255 = st ∧ (wReq st 0 0).blk.restarting = false ∧ (wReq st 0 0).blk.clk.forcing = false) ∧
    ((wReq sLeaving 1 3).blk.wakeIgnored 255 = false ∧ (wReq sLeaving 1 3).blk.st 255 = sLeaving ∧ ((wReq sLeaving 1 3).blk.R 255).descent ≠ 3) ∧
    (wHotDone.blk.wakeIgnored 255 = true ∧ wHotDone.blk.st 255 ≠ sLeaving ∧ wHotDone.blk.Calm) ∧
    (∀ depth ∈ [1, 2, 3], (wReq sLeaving 3 depth).blk.Calm ∧ (wReq sLeaving 3 depth).blk.engineRunning = true ∧
      (wReq sLeaving 3 depth).blk.st 255 = sLeaving ∧ ((wReq sLeaving 3 depth).blk.R 255).descent = 3 ∧
      ((wReq sLeaving 3 depth).blk.R 255).depth = depth ∧ (wReq sLeaving 3 depth).blk.fld REG_FIDX_PERMIT 255 = 0 ∧
      ((wReq sLeaving 3 depth).blk.R 255).abandon = false) := by decide +kernel
theorem wit_CorrectedFetch : wRows.blk.eng.run ≠ .none ∧ wRows.blk.eng.fetched = [] ∧ wRows.blk.eng.trail = [] ∧
    wRows.blk.eng.pipe = { next := wRows.blk.eng.cycle0 } ∧ wRows.blk.Mild srcMEM_SPARE_OUT ∧ 7 / 4 = wRows.blk.eng.pc / 4 := by decide +kernel
def wSendFull : State := let s := wRingM; { s with blk := s.blk.modEng (fun e => { rows e with run := .tick, sendQ := List.replicate 8 (1, 2) }) }
theorem wit_RingSendStalls : wSendFull.blk.eng.run ≠ .none ∧ 8 ≤ wSendFull.blk.eng.sends.length + wSendFull.blk.eng.sendQ.length ∧
    wSendFull.blk.maySend = true ∧ wQueueFull.blk.maySend = false ∧ Instr.wf (.rsend ⟨0, 1, 0, 0, 6⟩ (some 0)) = true := by decide +kernel
theorem wit_LoopDuty : wDuty.blk.st 255 = sRun ∧ wDuty.blk.fld REG_VSET_APPLIED 255 = wDuty.blk.fld REG_VSET_TARGET 255 ∧
    (wDuty.blk.R 255).winFail = false ∧ (wDuty.blk.R 255).convRun = 0 ∧ (wDuty.blk.R 255).convBad = false ∧ wDuty.blk.vin (quadOf 255) ≠ 0 ∧
    wDuty.blk.switching 255 = [1020, 1021] ∧ wDuty.blk.cond 1020 = cSwitching ∧ (wDuty.blk.R 255).budget = false ∧
    (∀ q, q ∈ wDuty.blk.switching 255 → wDuty.blk.avg16 q ≤ 31 / 10 * 131072) ∧
    (∀ v, v ∈ [0, 800] → (31 / 10 * 131072 : Rat) < (wDutyHot v).blk.avg16 1020) := by decide +kernel
/-- A predicted current of 4 A or more, whatever ripple the configuration predicts. -/
def steep : Rat := 1 / (((Config.ripple 2 2 200 2000 800).natAbs : Rat) + 1)
def wOpen : State := mk (twoPhases ++ [(REG_VSENSE_VOUT, 800, 255)]) (fun b =>
  (b.modP 1020 (fun p => { p with duty := 200, rPath := steep, openRun := 3, res := some ⟨1020, 0, false, false, false, false⟩ })).modP 1021
    (fun p => { p with res := some ⟨1021, 0, false, false, false, false⟩ }))
def wPf (f : Ph → Ph) : State := mk twoPhases (fun b => (b.modP 1020 f).modP 1021 (fun p => { p with res := some ⟨1021, 0, false, false, false, false⟩ }))
def wFl : State := wPf (fun p => { p with res := some ⟨1020, 5, true, false, false, false⟩, flRun := 7 })
def wMiss : State := wPf (fun p => { p with missRun := 3 })
theorem wit_PeriodFaults : (∀ s ∈ [wFl, wMiss, wOpen], s.blk.Calm ∧ s.blk.isV = true ∧ s.blk.forcedAll = false ∧
      s.blk.Milds [srcFAIL_SHORT, srcSTAGE_OT, srcFAIL_OPEN, srcSENSE_FAIL, srcPOOL_EMPTY] ∧ s.blk.reaction srcSHORT < 3 ∧
      s.blk.thm.stopStep = 0 ∧ s.blk.mapped 255 = [1020, 1021] ∧ (∀ k ∈ [1020, 1021], s.blk.cond k = cSwitching ∧
        (s.blk.P k).shedDue = false ∧ (s.blk.P k).replies = 0) ∧ ((s.blk.P 1021).res.any (fun x => !x.ot && !x.fl)) = true ∧
      (s.blk.P 1021).flTrip = false) ∧
    ((wFl.blk.P 1020).res.any (fun r => r.fl && !r.ot) = true ∧ 7 ≤ (wFl.blk.P 1020).flRun) ∧
    ((wMiss.blk.P 1020).res = none ∧ 3 ≤ (wMiss.blk.P 1020).missRun) ∧
    ((wOpen.blk.P 1020).res = some ⟨1020, 0, false, false, false, false⟩ ∧ (wOpen.blk.P 1020).flTrip = false ∧ 3 ≤ (wOpen.blk.P 1020).openRun ∧
      (wOpen.blk.currentOf 1020 0).natAbs * 100 ≤ 8 * 131072) := by unfold Block.Milds; decide +kernel
theorem wit_OpenPrediction : 4 / 10 * 131072 ≤ 131072 * iModel ((wOpen.blk.P 1020).duty : Rat) (wOpen.blk.vin (quadOf 255))
      (wOpen.blk.fld REG_VSENSE_VOUT 255) (wOpen.blk.P 1020).rPath +
    Config.ripple (wOpen.blk.P 1020).sentEvent (wOpen.blk.P 1020).sentDelay (wOpen.blk.P 1020).duty (wOpen.blk.vin (quadOf 255))
      (wOpen.blk.fld REG_VSENSE_VOUT 255) := by
  have hd : (wOpen.blk.P 1020).duty = 200 ∧ wOpen.blk.vin (quadOf 255) = 2000 ∧ wOpen.blk.fld REG_VSENSE_VOUT 255 = 800 ∧
    (wOpen.blk.P 1020).sentEvent = 2 ∧ (wOpen.blk.P 1020).sentDelay = 2 := by decide +kernel
  have hr : (wOpen.blk.P 1020).rPath = steep := rfl
  obtain ⟨h1, h2, h3, h4, h5⟩ := hd
  rw [hr, h1, h2, h3, h4, h5, steep, iModel]
  generalize Config.ripple 2 2 200 2000 800 = r
  have h : -((r.natAbs : Nat) : Rat) ≤ (r : Rat) := by
    have i := Rat.intCast_le_intCast.mpr (show -((r.natAbs : Nat) : Int) ≤ r by omega)
    rwa [Rat.intCast_neg, Rat.intCast_natCast] at i
  have h' : (0 : Rat) ≤ ((r.natAbs : Nat) : Rat) := by exact_mod_cast Nat.zero_le r.natAbs
  generalize ((r.natAbs : Nat) : Rat) = n at *
  have e : ((200 : Nat) : Rat) = 200 ∧ ((2000 : Nat) : Rat) = 2000 ∧ ((800 : Nat) : Rat) = 800 := by decide +kernel
  rw [e.1, e.2.1, e.2.2]
  grind
theorem wit_SteeringOpen : steerParityOk (steerSymbols false 255) = true ∧ (steerSymbols false 255).getLsbD 5 = false ∧
    (wSwap (fun b => b.modP 1087 (fun p => { p with openDue := true, steerCmd := [3] }))).blk.opening 15 = some 1087 ∧
    (steerSymbols true 255).getLsbD 5 = true ∧ wSwap.blk.opening 15 = none := by decide +kernel
theorem wit_DroopDisarmed : armedIn ((wRegSt sDark (fun r => { r with episode := true })).blk.st 255) = false ∧
    (wRegion.blk.R 255).episode = false := by decide +kernel
def wStuck (mask : Nat) : State := wRegion (fun r => { r with uvAt := some 10, raiseAt := some 10, crossed := 8, episode := true })
  [(REG_STATUS_DET_MASK, mask, 255)]
theorem wit_DetectorsMasked : ∀ mask ∈ [3, 7], (wStuck mask).blk.Calm ∧ ((wStuck mask).blk.setNow 10000).detectorStuck 255 3 = true ∧
    (wStuck mask).blk.Mild srcDET_DEAD ∧ ((wStuck mask).blk.fld REG_STATUS_DET_MASK 255 ||| 2 ^ 3 = 15 ↔ mask = 7) := by decide +kernel
theorem wit_SettledVoltage : (mk [(REG_PSTATE_STATE, 4, 255)] (fun b => (wSettled b).modR 255 (fun r => { r with uvAt := some 10 }))).blk.refSettled 0 = true ∧
    wVolt.blk.refSettled 0 = false := by decide +kernel
def wSpareConv (f : Rgn → Rgn := id) (fs : List (Fld × Nat × Nat) := []) : State :=
  wConv f ([(ADC_SPARE_STATE, 2, 15), (ADC_SPARE_SERVES, 255, 15), (REG_VSET_APPLIED, 1600, 255)] ++ fs)
theorem wit_SpareAndTapConversions : wSpareConv.blk.servedBy 255 = none ∧ wSpareConv.blk.servedBy 271 = some 255 ∧
    wSpareConv.blk.refSettled 0 = true ∧ wSpareConv.blk.bit REG_STATUS_SENSE_SRC 255 = false ∧ wSpareConv.blk.checkRuns 255 = true ∧
    agree9 (wSpareConv.blk.calibrated 271 1600) (wSpareConv.blk.windowVolts 255) = true ∧
    agree9 (wSpareConv.blk.calibrated 271 10) (wSpareConv.blk.windowVolts 255) = false ∧ (wSpareConv.blk.R 255).convRun = 0 ∧
    (wSpareConv.blk.R 255).convBad = false ∧ (wSpareConv.blk.R 255).convs + 1 < 64 ∧
    ((wSpareConv (fun r => { r with convs := 63 })).blk.R 255).convs + 1 = 64 ∧
    (wSpareConv (fun r => { r with convs := 62 }) [(REG_STATUS_SENSE_SRC, 1, 255)]).blk.bit REG_STATUS_SENSE_SRC 255 = true ∧
    ((wSpareConv (fun r => { r with convs := 62 }) [(REG_STATUS_SENSE_SRC, 1, 255)]).blk.R 255).convs + 1 < 64 ∧
    ((wSpareConv (fun r => { r with convs := 62 }) [(REG_STATUS_SENSE_SRC, 1, 255)]).blk.R 255).clearProbe = false := by decide +kernel
def wStandIn (st : Nat) : State := let s := wArb [(ENG_STATUS_STATE, st, 0)]; s
theorem wit_StandIn : (wStandIn eRunning).blk.engineRunning = true ∧ (wStandIn eRunning).blk.refSettled 0 = true ∧
    agree9 ((wStandIn eRunning).blk.calibrated 271 1600) ((wStandIn eRunning).blk.windowVolts 255) = true ∧
    (wNoSpare0.blk.fld ADC_SPARE_STATE 15 = 2 ∧ wNoSpare0.blk.fld ADC_SPARE_SERVES 15 = 255) := by decide +kernel
theorem wit_SelectTrigger : (wSelTrig.blk.W (weaveOfPhase 1087)).run.isSome = true ∧ (wSelTrig.blk.W (weaveOfPhase 1087)).spare = 1087 ∧
    wSelTrig.blk.fld WV_SWAP_STAGE (weaveOfPhase 1087) = stSelect ∧ wSelTrig.blk.isV = true ∧ wSelTrig.blk.stageIdle 1087 = true ∧
    wSelTrig.blk.populated 1087 = true ∧ mk.blk.isV = false ∧ 2 ^ 11 - 1 < 2 ^ 11 := by decide +kernel
theorem wit_AuxiliaryGroups : ((wBusy0 2).blk.setNow 9).auxStarted 2 = true ∧ (wBusy0 2).blk.refSettled 2 = true ∧ (wBusy0 2).blk.Mild srcAUX_FAIL := by
  decide +kernel
def wStops (k : Nat) : State := wRegSt sWaking (fun r => { r with hdrEn := 0xFFFF, exitTo := k, integ := 5, wakeAt := some 4, wakeLat := 5 }) [(REG_VSET_APPLIED, 800, 255)]
theorem wit_ExitsThatStop : ∀ k ∈ [0, 1, 2], (wStops k).blk.readyNow 255 = true ∧ ((wStops k).blk.R 255).exitTo = k ∧
    4 + ((wStops k).blk.R 255).wakeLat < max (wStops k).blk.now 10 := by decide +kernel
def wKept : State := wRegSt sDoze (fun r => { r with exitAt := some 0, keptWake := true, wakeAt := some 2 })
theorem wit_KeptWake : wKept.blk.st 255 = sDoze ∧ (wKept.blk.R 255).exitAt = some 0 ∧ (wKept.blk.R 255).keptWake = true ∧
    (wKept.blk.R 255).wakeAt.isSome = true ∧ wKept.blk.wakeIgnored 255 = false := by decide +kernel
def wTested (f : Rgn → Rgn := id) (fs : List (Fld × Nat × Nat) := []) : State := wSoft f (fs ++ [(REG_VSENSE_VOUT, 5, 255)])
def wGrouped : State := wRegSt sSoftstart (fun r => { r with ssAt := some 3 }) [(REG_VSENSE_VOUT, 5, 255), (REG_GROUP_VALID, 1, 255)] (fun b => b.applyWrites)
theorem wit_SelfTests : (∀ s ∈ [wTested, wTested (fun r => { r with keptWake := true }), wGrouped],
      s.blk.Calm ∧ s.blk.st 255 = sSoftstart ∧ (s.blk.R 255).ssAt.isSome = true ∧ s.blk.meshSettled 255 = true ∧
      (s.blk.R 255).maskEnd = false ∧ s.blk.fld REG_STATUS_OVC_MASK 255 ||| 7 ≠ 15 ∧ s.blk.fld REG_STATUS_OVC_MASK 255 ||| 15 = 15) ∧
    (wTested (fun r => { r with keptWake := true })).blk.groupOf 255 = none ∧ wTested.blk.groupOf 255 = none ∧
    (wGrouped).blk.groupOf 255 = some 0 ∧ (wSoft (fun r => { r with ssAt := none })).blk.st 255 = sSoftstart := by
  decide +kernel
theorem wit_DawnStops : ∀ k ∈ [1, 2], let s := wRegSt sDawn (fun r => { r with waits := 8, stage := 15, hdrEn := 0xF, exitTo := k }) [(REG_VSENSE_VOUT, 900, 255)]
    s.blk.Calm ∧ s.blk.st 255 = sDawn ∧ (s.blk.R 255).exitTo = k ∧ s.blk.belowHalf 255 (s.blk.runTarget0 255) = false ∧ (s.blk.R 255).seven = false := by
  decide +kernel
theorem wit_DuskPermit : (wRegSt sDusk (fun r => { r with stage := 0 }) [(ENG_STATUS_STATE, 2, 0), (REG_FIDX_PERMIT, 3, 255)]).blk.engineRunning = true ∧
    (wRegSt sDusk (fun r => { r with stage := 0 }) [(ENG_STATUS_STATE, 2, 0), (REG_FIDX_PERMIT, 3, 255)]).blk.fld REG_FIDX_PERMIT 255 ≠ 0 ∧
    (wDusk 0 false eRunning).blk.fld REG_FIDX_PERMIT 255 = 0 := by decide +kernel
theorem wit_ChipResetAgain : ({ wUp.blk with inReset := true, resetAt := 4 } : Block).Calm ∧ ({ wUp.blk with inReset := true, resetAt := 4 } : Block).aonUp = true ∧
    (wRegSt sDoze).blk.st 255 ≠ sSoftstart := by decide +kernel
def wSource (k st ref src : Nat) (ready : List Fld) (f : Clk → Clk := id) : State :=
  wClk (ready ++ [CLK_STATUS_SLO_RDY, readyFld k]) [(ENG_STATUS_STATE, st, 0), (CLK_STATUS_REF, ref, 0), (CLK_STATUS_SVC_SRC, src, 0)] f
theorem wit_LossesOfSources : ∀ x ∈ [(kXA, wSource kXA eRunning 0 0 []), (kXA, wSource kXA eRunning 1 0 []), (kPLLE, wSource kPLLE eRunning 0 1 [readyFld kFIO]),
      (kPLLE, wSource kPLLE eRunning 0 1 []), (kFIO, wSource kFIO eRunning 0 0 [readyFld kPLLE]), (kFIO, wSource kFIO eRunning 0 0 []),
      (kPLLE, wSource kPLLE eHalted 0 0 []), (kPLLE, wSource kPLLE eInit 0 0 [])],
    0 < x.1 ∧ x.1 < 8 ∧ x.1 ≠ x.2.blk.activeLoop ∧ x.2.blk.Calm ∧ x.2.blk.Milds [lossSrc x.1, srcENG_STUCK] ∧ x.2.blk.flt.waiting = [] ∧
    x.2.blk.thm.stopStep = 0 ∧ x.2.blk.clkReady x.1 = true := by unfold Block.Milds; decide +kernel
theorem wit_LossOfPlle : (wSource kPLLE eRunning 0 1 [readyFld kFIO]).blk.engineRunning = true ∧
    (wSource kPLLE eRunning 0 1 [readyFld kFIO]).blk.fld ENG_STATUS_STATE ∈ [eRunning, eHalted, eInit] ∧
    (wSource kPLLE eRunning 0 1 [readyFld kFIO]).blk.fld CLK_STATUS_SVC_SRC = 1 ∧ (wSource kFIO eRunning 0 0 []).blk.fld CLK_STATUS_SVC_SRC = 0 ∧
    (wSource kPLLE eRunning 0 1 [readyFld kFIO]).blk.clkReady kFIO = true ∧ (wSource kPLLE eRunning 0 1 []).blk.clkReady kFIO = false ∧
    (wSource kFIO eRunning 0 0 [readyFld kPLLE]).blk.clkReady kPLLE = true ∧ (wSource kFIO eRunning 0 0 []).blk.clkReady kPLLE = false ∧
    (wSource kPLLE eRunning 0 1 []).blk.heldZero 255 = true ∧ (wRegSt sRun).blk.heldZero 255 = false ∧
    (wSource kXA eRunning 0 0 []).blk.fld CLK_STATUS_REF = 0 ∧ (wSource kXA eRunning 1 0 []).blk.fld CLK_STATUS_REF ≠ 0 := by decide +kernel
theorem wit_GatedSource : (wSource kXA eRunning 0 0 [] (fun c => { c with gate := 0 })).blk.gateOn kXB
      ((wSource kXA eRunning 0 0 [] (fun c => { c with gate := 0 })).blk.fld CLK_STATUS_MODE) = false ∧
    (wSource kXA eRunning 0 0 [] (fun c => { c with gate := 0 })).blk.eng.restartReq = false := by decide +kernel
theorem wit_StoppingSources : (wStopped srcSLO_STOP).blk.engineRunning = false ∧ (wStopped srcPH_ACTIVE_LOSS).blk.engineRunning = false ∧
    (wStopped srcPH_ACTIVE_LOSS).blk.thm.stopStep < 3 ∧ (wStopped srcPH_ACTIVE_LOSS).blk.clk.forcing = false := by decide +kernel
theorem wit_LoopBack : (wClk [CLK_STATUS_SLO_RDY, CLK_STATUS_XA_RDY] [] (fun c => { c with collapsed := true, forcing := true, inBand := [(kPLLS, 2)] })).blk.mayBeReady kPLLS = true ∧
    (wClk [CLK_STATUS_SLO_RDY, CLK_STATUS_XA_RDY] [] (fun c => { c with collapsed := true, forcing := true, inBand := [(kPLLS, 2)] })).blk.clk.sleeping = false ∧
    (wClk [CLK_STATUS_SLO_RDY, CLK_STATUS_XA_RDY] [] (fun c => { c with inBand := [(kFIO, 2)] }) (fun b => b.modImg (fun i => { i with waitFio := true }))).blk.mayBeReady kFIO = true ∧
    (wClk [CLK_STATUS_XB_RDY] [(CLK_PSYNC_EN, 1, 0), (CLK_STATUS_REF, 3, 0)] (fun c => { c with lost := 0x08, readyAt := [(3, some 9)] })).blk.bit CLK_PSYNC_EN = true ∧
    (wLost [CLK_STATUS_XB_RDY] [(CLK_STATUS_REF, 3, 0)]).blk.bit CLK_CTL_REF_AUTO = true := by decide +kernel
theorem wit_TurningPoint : (wPsync 0).blk.bit CLK_SSC_DITHER = false ∧
    (wClk [] [(CLK_SSC_DITHER, 1, 0), (CLK_STATUS_SSC_SUPPR, 0, 0)]).blk.bit CLK_STATUS_SSC_SUPPR = false := by decide +kernel
theorem wit_LoadTimeouts : (wEnd0 1).blk.Calm ∧ (wEnd0 1).blk.img.stage = 1 ∧ (wEnd0 1).blk.img.limitRegs.all writeAllowed = true ∧
    (wEnd0 1).blk.img.staged.writes.all (fun w => writeAllowed w.1) = true ∧
    (wEnd0 1).blk.img.rose + 1200000000 ≤ max (wEnd0 1).blk.now 1200000000 ∧ (wEnd0 3).blk.img.stage = 3 ∧ (wEnd0 2).blk.flt.step ≠ 1 ∧
    (wEnd0 0).blk.img.stage = 0 := by decide +kernel
theorem wit_CommitOfTable : (wJournal0 []).blk.img.commit = some { wCommit with ops := [] } ∧ ({ wCommit with ops := [] } : Commit).kinds.getLsbD 3 = false ∧
    ({ wCommit with ops := [], kinds := 8 } : Commit).kinds.getLsbD 3 = true := by decide +kernel
theorem wit_PmbusFailures : wPmb1.blk.Calm ∧ wPmb1.blk.img.devs.length ≤ 8 ∧ wPmb1.blk.pmbRuns = true ∧
    wPmb1.blk.Milds [srcPMB_ALERT, srcPMB_ERR] ∧ wPmb1.blk.pmbIndex 0x41 = some 1 ∧
    (((List.range wPmb1.blk.img.start.length).zip wPmb1.blk.img.start).filter (fun e =>
      !wPmb1.blk.bit PMB_DEV_FAILED e.2.dev && !wPmb1.blk.bit PMB_DEV_UNSUPPORTED e.2.dev)).length = 3 ∧
    3 ≤ [0, 3].getD 1 0 := by unfold Block.Milds; decide +kernel
def symbolsOf (bs : List Byte) : List Symbol := symStart :: bs.map Symbol.d ++ [symEnd]
def badBody : List Byte := List.replicate 20 0x11
theorem wit_BadFrames : frameBody [] = none ∧ frameBody (symbolsOf badBody) = some badBody ∧ badBody.drop 16 ≠ leBytes 4 (crc32 (badBody.take 16)).toNat ∧
    frameBody (symbolsOf (badBody.take 16 ++ leBytes 4 (crc32 (badBody.take 16)).toNat)) =
      some (badBody.take 16 ++ leBytes 4 (crc32 (badBody.take 16)).toNat) ∧
    (badBody.take 16 ++ leBytes 4 (crc32 (badBody.take 16)).toNat).drop 16 = leBytes 4 (crc32 (badBody.take 16)).toNat ∧
    (wBad 3).blk.bit (laneOk 1) = true ∧ wRingM.blk.bit (laneOk 0) = false := by decide +kernel
theorem wit_NothingStarts : (∀ y ∈ (wTx ⟨ring mPace 6, true, 3, 0, false⟩).blk.hoop.tx, y.started = true) ∧
    (wTx ⟨ring mPace 6, true, 3, 0, false⟩).blk.paceRepeats = false := by decide +kernel
def wErred : State := wRingM (fun h => { h with errAt0 := 5 }) [(laneOk 1, 0, 0), (HOOP_STATUS_ACT_LANE, 1, 0)]
theorem wit_LaneAgain : wErred.blk.errAt 0 + 1000000 ≤ max wErred.blk.now 1000005 ∧ max wErred.blk.now 1000004 < wErred.blk.errAt 0 + 1000000 ∧
    wErred.blk.Calm ∧ wErred.blk.Mild srcHOOP_LANE ∧ wErred.blk.fld HOOP_STATUS_ACT_LANE = 1 - 0 ∧ wErred.blk.bit (laneOk (1 - 0)) = false ∧
    wBad0.blk.fld HOOP_STATUS_ACT_LANE = 1 - 1 ∧ wBad0.blk.bit (laneOk (1 - 1)) = true := by decide +kernel
def wCapAgain : State := let s := wRingM (fun h => { h with capLast := some [1, 2, 3] }); { s with blk := { s.blk with flt := { step := 2 } } }
theorem wit_CapInReset : wCapAgain.blk.Calm ∧ wCapAgain.blk.hoop.bypOpen = true ∧ wCapAgain.blk.hoop.tx.length < 16 ∧
    wCapAgain.blk.restarting = true ∧ wCapAgain.blk.hoop.capLast = some [1, 2, 3] ∧ wRingM.blk.restarting = false ∧
    (∀ y ∈ wRingM.blk.hoop.tx, y.frame.ty ≠ mTickSync) ∧ { wRingM.blk with now := 9 }.sentWithin mTickSync 1 = 0 := by decide +kernel
theorem wit_AllocatorTurn : (wAllocAt 5).blk.hoop.acting = true ∧ (wAllocAt 5).blk.hoop.bypOpen = true ∧
    (∀ a, (wAllocAt 5).blk.hoop.allocAt = some a → a + (wAllocAt 5).blk.turn ≤ max (wAllocAt 5).blk.now 4405) ∧
    (wAllocAt 5).blk.turn = 4400 ∧ (wAllocAt 5).blk.hoop.tx.length + ((wAllocAt 5).blk.fld HOOP_CFG_N + 5) / 6 ≤ 16 ∧
    ({ (wAllocAt 5).blk with now := 4405 } : Block).target (List.range 8) 6 > ((wAllocAt 5).blk.peer 6).share ∧
    ({ (wAllocAt 5).blk with now := 4405 } : Block).target (List.range 8) 2 ≤ ((wAllocAt 5).blk.peer 2).share := by
  refine ⟨by decide +kernel, by decide +kernel, ?_, by decide +kernel, by decide +kernel, by decide +kernel, by decide +kernel⟩
  intro a h
  have e : (wAllocAt 5).blk.hoop.allocAt = some 5 := rfl
  rw [e] at h; injection h with h; subst h; decide +kernel
theorem wit_BackupTurns : wBackup.blk.hoop.cfgOk = true ∧ wBackup.blk.hoop.bypOpen = true ∧ wBackup.blk.hoop.acting = false ∧
    wBackup.blk.bit HOOP_CFG_BACKUP_VALID = true ∧ wBackup.blk.me = wBackup.blk.fld HOOP_CFG_BACKUP_ID ∧
    wBackup.blk.me ≠ wBackup.blk.fld HOOP_CFG_ALLOC_ID ∧
    max wBackup.blk.hoop.openAt (wBackup.blk.hoop.budHeard.getD 0) + 32 * wBackup.blk.turn ≤ max wBackup.blk.now 140800 ∧
    max wBackup.blk.now 140799 < max wBackup.blk.hoop.openAt (wBackup.blk.hoop.budHeard.getD 0) + 32 * wBackup.blk.turn := by decide +kernel
theorem wit_MissingBudget : max (wAlloc false).blk.now 4409 ≤ 9 + (wAlloc false).blk.turn ∧
    max (wAlloc false).blk.now 13199 < (wAlloc false).blk.hoop.openAt + 3 * (wAlloc false).blk.turn := by decide +kernel
def wIdles (at' : Option Nat) : State := wRingM (fun h => { h with bypOpen := false, fellAt := some 9, idleAt := at' })
theorem wit_Idles : (∀ x ∈ [none, some 10000009], (wIdles x).blk.Calm ∧ (wIdles x).blk.mayJoin = true ∧ (wIdles x).blk.hoop.bypOpen = false ∧
      (wIdles x).blk.hoop.fellAt = some 9 ∧ (wIdles x).blk.hoop.idleAt = x) ∧ 9 + 10000000 ≤ max (wIdles none).blk.now 10000009 ∧
    10000009 + 100000 ≤ max (wIdles none).blk.now 10100009 ∧ max (wIdles none).blk.now 10100008 < 10000009 + 100000 ∧
    max (wIdles none).blk.now 10000008 < 9 + 10000000 := by decide +kernel
def wRec (f : Trc → Trc) (fs : List (Fld × Nat × Nat) := []) : State := wTrace (fun t => f { t with mem := [{ kind := kTick, len := 9, rows := [5, 6] }, { kind := kEnd }] }) fs
theorem wit_TraceRecords : (wRec id).blk.Calm ∧ (wRec id).blk.trc.mem = [{ kind := kTick, len := 9, rows := [5, 6] }, { kind := kEnd }] ∧
    (wRec id).blk.bit TRC_CTL_EXPORT = true ∧ (wRec id).blk.img.rcHold = false ∧
    (let held := fun b : Block => (b.fld TRC_EXP_WPTR_WPTR + 2 ^ 32 - b.fld TRC_EXP_RPTR_RPTR) % 2 ^ 32
     let words := fun b : Block => 2 ^ (clampN 16 36 (b.fld TRC_EXP_BASE_HI_SIZE_LOG2) - 4)
     held (wRec id).blk + 9 < words (wRec id).blk ∧
     held (wRec id [(TRC_EXP_BASE_HI_SIZE_LOG2, 16, 0), (TRC_EXP_WPTR_WPTR, 4086, 0)]).blk + 9 + 1 = words (wRec id [(TRC_EXP_BASE_HI_SIZE_LOG2, 16, 0)]).blk ∧
     held (wRec id [(TRC_EXP_BASE_HI_SIZE_LOG2, 16, 0), (TRC_EXP_WPTR_WPTR, 4087, 0)]).blk + 9 = words (wRec id [(TRC_EXP_BASE_HI_SIZE_LOG2, 16, 0)]).blk) ∧
    (wRec (fun t => { t with trigLeft := some 0 })).blk.trc.trigLeft = some 0 ∧ (wRec (fun t => { t with trigLeft := some 0 })).blk.Mild srcTRC_LOSS ∧
    (wRec id).blk.trc.trigLeft ≠ some 0 ∧ (wRec (fun t => { t with copying := true })).blk.trc.copying = true := by decide +kernel
def wReplays (cur : Option TrcRec) (rest : List TrcRec) (at' : Option Nat) (up : Bool) : State :=
  let f : Block → Block := fun b =>
    (b.modTrc (fun t => { t with cur := cur, rest := rest, shadow := [(3, 4)] })).modEng (fun e => { e with run := .none, twaitAt := at' })
  if up then wUp [(TRC_REPLAY_BUSY, 1, 0)] f else mk [(TRC_REPLAY_BUSY, 1, 0)] f
def wRecTick (sig : Nat) : TrcRec := { kind := kTick, sig := sig, rows := [5, 6] }
/-- The signature of the outputs that a replayed tick of `wReplays` leaves. -/
def wSig : Nat := (wReplays none [] (some 5) false).blk.eng.signature.toNat
theorem wit_Replay : (∀ up ∈ [true, false], (wReplays none [wRecTick 7] none up).blk.Calm ∧ (wReplays none [wRecTick 7] none up).blk.bit TRC_REPLAY_BUSY = true ∧
      (wReplays none [wRecTick 7] none up).blk.trc.spoiled = false ∧ (wReplays none [wRecTick 7] none up).blk.mayRestart = up) ∧
    ((wReplays none [wRecTick 7] none false).blk.trc.cur = none ∧ (wReplays none [wRecTick 7] none false).blk.trc.rest = [wRecTick 7] ∧
      (wRecTick 7).kind = kTick) ∧
    (∀ rest ∈ [[], [wRecTick 7], [{ kind := kEnd }]], (wReplays (some (wRecTick 7)) rest none true).blk.trc.cur = some (wRecTick 7) ∧
      (wReplays (some (wRecTick 7)) rest none true).blk.trc.rest = rest ∧ (wRecTick 7).flags % 2 = 0 ∧
      (wReplays (some (wRecTick 7)) rest none true).blk.eng.twaitAt = none) ∧
    (kEnd ≠ kTick ∧ kEnd ≠ kKey) := by decide +kernel
theorem wit_ReplayMatches (rest : List TrcRec) (up : Bool) : let b := (wReplays (some (wRecTick wSig)) rest (some 5) up).blk
    b.trc.cur = some (wRecTick wSig) ∧ (wRecTick wSig).flags = 0 ∧ b.eng.twaitAt = some 5 ∧ b.eng.ueMark = false ∧ b.eng.mismatch = false ∧
    b.eng.signature.toNat = (wRecTick wSig).sig := by cases up <;> exact ⟨rfl, rfl, rfl, rfl, rfl, rfl⟩
theorem wit_RegionOutputs : (∀ s ∈ [wDone0 1 4 id, wDone0 1 sLeaving (fun e => { e with wrote := [] }) [] (fun b => b.modR 255 (fun r => { r with descent := 1 })),
      wDone0 1 sLeaving id [] (fun b => b.modR 255 (fun r => { r with descent := 1, forced := true, issue := 9 }))],
      s.blk.Calm ∧ s.blk.fld ENG_STATUS_STATE = eRunning ∧ s.blk.tickAborts = false ∧ s.blk.trc.spoiled = false ∧
      s.blk.Milds [srcENG_PROG_EVENT, srcSENSE_FAIL, srcWEAR_RON, srcWEAR_SENSE, srcPOOL_EMPTY, srcSENSE_CRACK, srcTRC_LOSS, srcCAPACITY] ∧
      s.blk.bit ENG_CTL_HALT = true ∧ s.blk.thm.stopStep = 0 ∧ s.blk.clk.forcing = false ∧ s.blk.clk.issueHold = 0) ∧
    (wDone0 1 4 id).blk.st 255 = sRun ∧ (wDone0 1 sLeaving id).blk.st 255 = sLeaving ∧ (wDone0 1 4 id).blk.eng.wrote.contains 5 = true ∧
    (wDone0 1 4 (fun e => { e with wrote := [] })).blk.eng.wrote.contains 5 = false := by unfold Block.Milds; decide +kernel
def wSleepy (halt how : Nat) (busy : Bool) (fs : List (Fld × Nat × Nat) := []) (quiet : Nat := 0) : State :=
  wDone0 halt 4 id ([(REG_PCTL_IDLE_MIN, 0, 255), (REG_GLAT_WAKE, 0x7FFF, 31)] ++ fs)
    (fun b => { (b.applyWrites).modR 255 (fun r => { r with busy := busy, zeroFrames := quiet }) with gsleep := [(31, how)] })
def wIdle : State := wSleepy 0 0 false [(REG_GLAT_AUTO, 1, 31), (REG_GLAT_IDLE_WIN, 0, 31)] 1
theorem wit_BoundarySleep : (∀ x ∈ [(wSleepy 1 1 false, false), (wSleepy 1 1 true, true), (wSleepy 1 2 true, true),
        (wIdle, false)],
      commits0 x.1.blk ∧ (x.1.blk.R 255).busy = x.2 ∧ x.1.blk.groupOf 255 = some 31 ∧ x.1.blk.st 255 = sRun ∧
      x.1.blk.efld REG_PCTL_IDLE_MIN 255 = 0 ∧ x.1.blk.fld REG_PCTL_IDLE_MIN 255 = 0 ∧ x.1.blk.wakeIgnored 255 = false ∧
      0 < x.1.blk.deepest 255 (x.1.blk.limitOf 255) x.1.blk.clk.stoppedCol) ∧
    (wSleepy 1 1 true).blk.gsleep.get (fun _ => 0) 31 = 1 ∧ (wSleepy 1 2 true).blk.gsleep.get (fun _ => 0) 31 = 2 ∧
    (wSleepy 1 1 true).blk.bit ENG_CTL_HALT = true ∧ wIdle.blk.bit ENG_CTL_HALT = false ∧ wIdle.blk.efld REG_GLAT_AUTO 31 = 1 ∧
    (wIdle.blk.H 31).tag = 0 ∧ max 1 (wIdle.blk.efld REG_GLAT_IDLE_WIN 31) ≤ (wIdle.blk.R 255).zeroFrames ∧
    (∀ m, m < 256 → (wIdle.blk.R m).exitAt = none) := by decide +kernel
def wRecord (rec halt : Nat) (f : Trc → Trc) : State := wDone0 halt 4 id [(TRC_STATUS_RECORDING, rec, 0)] (fun b => b.modTrc f)
def nearlyFull : Trc → Trc := fun t => { t with mem := [{ kind := kState, len := traceWords - 1 }] }
theorem wit_BoundaryRecord : (∀ s ∈ [wRecord 0 1 id, wRecord 1 1 (fun t => { t with ring := false }), wRecord 1 1 (fun t => nearlyFull { t with ring := false }),
        wRecord 1 1 (fun t => { t with ring := true, since := 0 }), wRecord 1 1 (fun t => { t with ring := true, since := 1 })],
      commits0 s.blk ∧ s.blk.bit ENG_CTL_HALT = true ∧ s.blk.trc.stopDue = false) ∧
    (wRecord 0 1 id).blk.bit TRC_STATUS_RECORDING = false ∧ (wRecord 1 1 id).blk.bit TRC_STATUS_RECORDING = true ∧
    traceWords < (wRecord 1 1 nearlyFull).blk.trc.fill + 1 + 1 ∧ (wRecord 1 1 id).blk.trc.fill = 0 ∧
    (wRecord 1 1 (fun t => { t with ring := true, since := 0 })).blk.trc.since = 0 ∧
    (wRecord 1 1 (fun t => { t with ring := true, since := 1 })).blk.trc.since ≠ 0 := by decide +kernel
theorem wit_Resume : (∀ halt ∈ [0, 1], (wEng eHalted id [(ENG_CTL_HALT, halt, 0)]).blk.Calm ∧
      (wEng eHalted id [(ENG_CTL_HALT, halt, 0)]).blk.fld ENG_STATUS_STATE = eHalted ∧
      (∀ src ∈ [srcSENSE_CRACK, srcCAPACITY, srcTRC_LOSS], (wEng eHalted).blk.Mild src) ∧
      (wEng eHalted id [(ENG_CTL_HALT, halt, 0)]).blk.bit ENG_CTL_HALT = decide (halt = 1)) ∧ (wEng eHalted).blk.bit TRC_REPLAY_BUSY = false := by
  decide +kernel
def wStopClk (run : Run) (req : Bool) (at' : Option Nat := none) (halt : Nat := 0) : State := wEng eClockStopped
  (fun e => { e with clockStopped := true, restartReq := req, run := run, twaitAt := at' }) [(CLK_STATUS_PLLE_RDY, 1, 0), (ENG_CTL_HALT, halt, 0)]
theorem wit_ClockRestart : (∀ s ∈ [wStopClk .init true, wStopClk .none true (some 5), wStopClk .none true, wStopClk .none true none 1, wStopClk .none false],
      s.blk.Calm ∧ s.blk.fld ENG_STATUS_STATE = eClockStopped ∧ s.blk.eng.clockStopped = true ∧ s.blk.clkReady kPLLE = true ∧
      (∀ src ∈ [srcSENSE_CRACK, srcCAPACITY, srcTRC_LOSS], s.blk.Mild src)) ∧
    (wStopClk .init true).blk.eng.run = .init ∧ (wStopClk .none true (some 5)).blk.eng.twaitAt.isSome = true ∧
    (wStopClk .none true).blk.eng.run ≠ .init ∧ (wStopClk .none true).blk.eng.twaitAt = none ∧ (wStopClk .none true).blk.eng.restartReq = true ∧
    (wStopClk .none true).blk.bit ENG_CTL_HALT = false ∧ (wStopClk .none true none 1).blk.bit ENG_CTL_HALT = true ∧
    (wStopClk .none false).blk.eng.restartReq = false ∧ (wEng eClockStopped).blk.clkReady kPLLE = false := by decide +kernel
theorem wit_Orphan : (∀ a, a < 5 → [true, true, true, false, false].getD a true = decide (a ≠ 3 ∧ a ≠ 4)) ∧
    (∀ a, a < 5 → ([] : List Bool).getD a true = true) := by decide +kernel
def wTraceScrub : State := wEng eRunning (fun e => { e with corrAt := [(wordElem 5 12, some 3)] }) ([(FLT_ROWS_LEFT, 1, 5)] ++
  [srcTRC_LOSS, srcMEM_SPARE_LOW].map (fun s => (FLT_CFG_REACT, 1, s))) (fun b => b.modTrc (fun t => { t with
    base := 9, mem := [{ kind := kState, len := 2 }, { kind := kTick, len := 3 }, { kind := kGap, len := 1 }] }))
theorem wit_ScrubTrace : wTraceScrub.blk.Calm ∧ 12 < memWords 5 ∧ wTraceScrub.blk.fld FLT_ROWS_LEFT 5 ≠ 0 ∧
    (∀ src ∈ [srcTRC_LOSS, srcMEM_SPARE_LOW], wTraceScrub.blk.Mild src) ∧
    wTraceScrub.blk.trc.mem = [{ kind := kState, len := 2 }] ++ { kind := kTick, len := 3 } :: [{ kind := kGap, len := 1 }] ∧
    (∀ x ∈ [(11, 0), (13, 2)], let d := (x.1 + traceWords - wTraceScrub.blk.trc.base) % traceWords
      [2].sum ≤ d ∧ d < [2].sum + 3 ∧ d = 2 + x.2) ∧
    wTraceScrub.blk.eng.corrAt.get (fun _ => none) (wordElem 5 12) = some 3 ∧ 3 + 1000000000 < max wTraceScrub.blk.now 1000000004 := by decide +kernel

/-! A whole image that every check passes: six sections, their header and the flash that holds them. -/

def gCrc (bs : List Byte) : Nat := (crc32 bs).toNat

/-- The bytes of fields, each a width and a value. -/
def flat (F : List (Nat × Nat)) : List Byte := F.flatMap (fun e => leBytes e.1 e.2)

theorem flat_length (F : List (Nat × Nat)) : (flat F).length = (F.map (·.1)).sum := by
  induction F with
  | nil => rfl
  | cons e r ih =>
    have : flat (e :: r) = leBytes e.1 e.2 ++ flat r := rfl
    simp [this, ih, leBytes_length]

theorem flat_bytes (F : List (Nat × Nat)) (i o n v : Nat) (hi : F[i]? = some (n, v)) (ho : ((F.take i).map (·.1)).sum = o) :
    bytesAt (flat F) o n = leBytes n v := by
  obtain ⟨hlt, he⟩ := List.getElem?_eq_some_iff.mp hi
  have hF : F = F.take i ++ (n, v) :: F.drop (i + 1) := by
    rw [← he, List.getElem_cons_drop, List.take_append_drop]
  have hf : flat F = flat (F.take i) ++ (leBytes n v ++ flat (F.drop (i + 1))) := by
    conv => lhs; rw [hF]
    simp [flat, List.flatMap_append]
  have hl : (flat (F.take i)).length = o := by rw [flat_length, ho]
  unfold bytesAt
  rw [hf, ← hl, List.drop_left, List.take_append_of_le_length (by simp [leBytes_length]), List.take_of_length_le (by simp [leBytes_length])]

theorem flat_field (F : List (Nat × Nat)) (i o n v : Nat) (hi : F[i]? = some (n, v)) (ho : ((F.take i).map (·.1)).sum = o)
    (hv : v < 256 ^ n) : leAt (flat F) o n = v := by
  unfold leAt
  rw [flat_bytes F i o n v hi ho, leNat_leBytes, Nat.mod_eq_of_lt hv]

def gEntry (ty off len crc : Nat) : List (Nat × Nat) := [(2, ty), (1, 0), (1, 0), (4, off), (4, len), (4, crc)]

/-- The fields of the header's first 0xA0 bytes. -/
def gHead (chip c1 c2 c3 c4 c5 c6 : Nat) : List (Nat × Nat) :=
  [(4, 0x49474C59), (2, 1), (1, 0), (1, 0), (8, chip), (4, 0), (4, 0), (1, 6), (7, 0), (32, 0)] ++
  gEntry 1 0x1000 262144 c1 ++ gEntry 2 0x41000 16 c2 ++ gEntry 3 0x42000 24 c3 ++ gEntry 4 0x43000 16 c4 ++
  gEntry 5 0x44000 36 c5 ++ gEntry 6 0x45000 6592 c6

def sealed (bs : List Byte) : List Byte := bs ++ leBytes 4 (gCrc bs)
def headOf (front : List Byte) : List Byte := sealed (front ++ List.replicate (0xFFC - front.length) 0)

theorem headOf_length (front : List Byte) (h : front.length ≤ 0xFFC) : (headOf front).length = 4096 := by
  simp [headOf, sealed, leBytes_length]; omega

theorem sealed_crc (bs : List Byte) (n : Nat) (h : bs.length = n) : leAt (sealed bs) n 4 = (crc32 ((sealed bs).take n)).toNat := by
  subst h
  have hlt := (crc32 bs).isLt
  have hd : (sealed bs).drop bs.length = leBytes 4 (gCrc bs) := by simp [sealed]
  have ht : (sealed bs).take bs.length = bs := by simp [sealed]
  unfold leAt bytesAt
  rw [hd, ht, List.take_of_length_le (by simp [leBytes_length]), leNat_leBytes]
  exact Nat.mod_eq_of_lt hlt

theorem headOf_crc (front : List Byte) (h : front.length ≤ 0xFFC) :
    leAt (headOf front) 0xFFC 4 = (crc32 ((headOf front).take 0xFFC)).toNat :=
  sealed_crc _ _ (by simp; omega)

theorem headOf_bytes (front : List Byte) (o n : Nat) (h : o + n ≤ front.length) : bytesAt (headOf front) o n = bytesAt front o n := by
  unfold bytesAt headOf sealed
  rw [List.append_assoc, List.drop_append_of_le_length (by omega), List.take_append_of_le_length (by simp; omega)]

theorem headOf_zeros (front : List Byte) (lo hi : Nat) (h0 : front.length ≤ lo) (h1 : hi ≤ 0xFFC) :
    zeros (headOf front) lo hi = true := by
  unfold zeros bytesAt headOf sealed
  rw [List.append_assoc, List.drop_append, List.drop_of_length_le h0, List.nil_append]
  simp only [List.all_eq_true, decide_eq_true_eq]
  intro x hx
  rw [List.drop_append, List.take_append] at hx
  rcases List.mem_append.mp hx with hx | hx
  · exact List.eq_of_mem_replicate (List.mem_of_mem_drop (List.mem_of_mem_take hx))
  · exfalso
    have := List.length_pos_of_mem hx
    simp at this
    omega

theorem headOf_field (front : List Byte) (o n : Nat) (h : o + n ≤ front.length) : leAt (headOf front) o n = leAt front o n := by
  unfold leAt; rw [headOf_bytes front o n h]

theorem headOf_sect (front : List Byte) (o : Nat) (h : o + 16 ≤ front.length) : sectAt (headOf front) o = sectAt front o := by
  unfold sectAt
  rw [headOf_field, headOf_field, headOf_field, headOf_field, headOf_field, headOf_field] <;> omega

/-- A flash of seven runs of bytes: a header and six sections. -/
def gFlash (h t c p w l k : List Byte) : Flash :=
  { segs := [⟨0, h⟩, ⟨0x1000, t⟩, ⟨0x41000, c⟩, ⟨0x42000, p⟩, ⟨0x43000, w⟩, ⟨0x44000, l⟩, ⟨0x45000, k⟩], sfdpOk := true, density := 0x04000000 }

theorem gFlash_reads (h t c p w l k : List Byte) (hh : h.length = 4096) (ht : t.length = 262144) (hc : c.length = 16) (hp : p.length = 24)
    (hw : w.length = 16) (hl : l.length = 36) (hk : k.length = 6592) :
    let f := gFlash h t c p w l k
    readFlash f 0 4096 = h ∧ readFlash f 0x1000 262144 = t ∧ readFlash f 0x41000 16 = c ∧ readFlash f 0x42000 24 = p ∧
    readFlash f 0x43000 16 = w ∧ readFlash f 0x44000 36 = l ∧ readFlash f 0x45000 6592 = k := by
  refine ⟨?_, ?_, ?_, ?_, ?_, ?_, ?_⟩
  · rw [← hh]; exact readFlash_seg [] _ 0 h _ _ (by simp) (by simp [hh])
  · rw [← ht]; exact readFlash_seg [⟨0, h⟩] _ 0x1000 t _ _ (by simp [hh]) (by simp [ht])
  · rw [← hc]; exact readFlash_seg [⟨0, h⟩, ⟨0x1000, t⟩] _ 0x41000 c _ _ (by simp [hh, ht]) (by simp [hc])
  · rw [← hp]; exact readFlash_seg [⟨0, h⟩, ⟨0x1000, t⟩, ⟨0x41000, c⟩] _ 0x42000 p _ _ (by simp [hh, ht, hc]) (by simp [hp])
  · rw [← hw]; exact readFlash_seg [⟨0, h⟩, ⟨0x1000, t⟩, ⟨0x41000, c⟩, ⟨0x42000, p⟩] _ 0x43000 w _ _ (by simp [hh, ht, hc, hp]) (by simp [hw])
  · rw [← hl]; exact readFlash_seg [⟨0, h⟩, ⟨0x1000, t⟩, ⟨0x41000, c⟩, ⟨0x42000, p⟩, ⟨0x43000, w⟩] _ 0x44000 l _ _
      (by simp [hh, ht, hc, hp, hw]) (by simp [hl])
  · rw [← hk]; exact readFlash_seg [⟨0, h⟩, ⟨0x1000, t⟩, ⟨0x41000, c⟩, ⟨0x42000, p⟩, ⟨0x43000, w⟩, ⟨0x44000, l⟩] _ 0x45000 k _ _
      (by simp [hh, ht, hc, hp, hw, hl]) (by simp)

theorem gFlash_erased (h t c p w l k : List Byte) (hh : h.length = 4096) (ht : t.length = 262144) (hc : c.length = 16) (hp : p.length = 24)
    (hw : w.length = 16) (hl : l.length = 36) (hk : k.length = 6592) :
    readFlash (gFlash h t c p w l k) 0x02000000 4096 = List.replicate 4096 0xFF := by
  have all : ∀ (ss : List FlashSeg) (bs : List Byte), (∀ s, s ∈ ss → s.base + s.bytes.length ≤ 0x02000000) → ss.foldr (overlay 0x02000000) bs = bs := by
    intro ss bs
    induction ss with
    | nil => intro _; rfl
    | cons s r ih =>
      intro hs
      rw [List.foldr_cons, ih (fun s h => hs s (by simp [h]))]
      exact overlay_below _ _ _ (hs s (by simp))
  exact all _ _ (by simp [gFlash, hh, ht, hc, hp, hw, hl, hk])

theorem gHead_length (chip c1 c2 c3 c4 c5 c6 : Nat) : (flat (gHead chip c1 c2 c3 c4 c5 c6)).length = 160 := by
  simp [flat_length, gHead, gEntry]

theorem gHead_fields (chip c1 c2 c3 c4 c5 c6 : Nat) (hchip : chip < 2 ^ 64) :
    let g := flat (gHead chip c1 c2 c3 c4 c5 c6)
    leAt g 0 4 = 0x49474C59 ∧ leAt g 4 2 = 1 ∧ leAt g 6 1 = 0 ∧ leAt g 7 1 = 0 ∧ leAt g 8 8 = chip ∧ leAt g 0x18 1 = 6 ∧
    leAt g 0x14 4 = 0 ∧ bytesAt g 0x19 7 = leBytes 7 0 := by
  refine ⟨flat_field _ 0 _ _ _ ?_ ?_ (by decide), flat_field _ 1 _ _ _ ?_ ?_ (by decide), flat_field _ 2 _ _ _ ?_ ?_ (by decide),
    flat_field _ 3 _ _ _ ?_ ?_ (by decide), flat_field _ 4 _ _ _ ?_ ?_ hchip, flat_field _ 7 _ _ _ ?_ ?_ (by decide),
    flat_field _ 6 _ _ _ ?_ ?_ (by decide), flat_bytes _ 8 _ _ _ ?_ ?_⟩ <;> simp [gHead, gEntry]

/-- An entry of a flat header is read back. -/
theorem flat_sect (a b : List (Nat × Nat)) (o ty off len c : Nat) (ho : (a.map (·.1)).sum = o)
    (ht : ty < 256 ^ 2) (hoff : off < 256 ^ 4) (hl : len < 256 ^ 4) (hc : c < 256 ^ 4) :
    sectAt (flat (a ++ gEntry ty off len c ++ b)) o = ⟨ty, 0, 0, off, len, c⟩ := by
  unfold sectAt
  rw [flat_field _ a.length o 2 ty, flat_field _ (a.length + 1) (o + 2) 1 0, flat_field _ (a.length + 2) (o + 3) 1 0,
    flat_field _ (a.length + 3) (o + 4) 4 off, flat_field _ (a.length + 4) (o + 8) 4 len, flat_field _ (a.length + 5) (o + 12) 4 c]
  all_goals first | assumption | decide | (simp [gEntry]; done) | (simp [gEntry, List.take_append, ho]; done) | (simp [gEntry, List.take_append]; rw [List.take_of_length_le (by simp), ho])

theorem gHead_sects (chip c1 c2 c3 c4 c5 c6 : Nat) (h1 : c1 < 256 ^ 4) (h2 : c2 < 256 ^ 4) (h3 : c3 < 256 ^ 4) (h4 : c4 < 256 ^ 4)
    (h5 : c5 < 256 ^ 4) (h6 : c6 < 256 ^ 4) :
    (List.range 6).map (fun i => sectAt (flat (gHead chip c1 c2 c3 c4 c5 c6)) (0x40 + 16 * i)) =
      [⟨1, 0, 0, 0x1000, 262144, c1⟩, ⟨2, 0, 0, 0x41000, 16, c2⟩, ⟨3, 0, 0, 0x42000, 24, c3⟩, ⟨4, 0, 0, 0x43000, 16, c4⟩,
       ⟨5, 0, 0, 0x44000, 36, c5⟩, ⟨6, 0, 0, 0x45000, 6592, c6⟩] := by
  let p0 : List (Nat × Nat) := [(4, 0x49474C59), (2, 1), (1, 0), (1, 0), (8, chip), (4, 0), (4, 0), (1, 6), (7, 0), (32, 0)]
  let e1 := gEntry 1 0x1000 262144 c1; let e2 := gEntry 2 0x41000 16 c2; let e3 := gEntry 3 0x42000 24 c3
  let e4 := gEntry 4 0x43000 16 c4; let e5 := gEntry 5 0x44000 36 c5; let e6 := gEntry 6 0x45000 6592 c6
  have s1 := flat_sect p0 (e2 ++ e3 ++ e4 ++ e5 ++ e6) (0x40 + 16 * 0) 1 0x1000 262144 c1 (by simp [p0]) (by decide) (by decide) (by decide) h1
  have s2 := flat_sect (p0 ++ e1) (e3 ++ e4 ++ e5 ++ e6) (0x40 + 16 * 1) 2 0x41000 16 c2 (by simp [p0, e1, gEntry]) (by decide) (by decide) (by decide) h2
  have s3 := flat_sect (p0 ++ e1 ++ e2) (e4 ++ e5 ++ e6) (0x40 + 16 * 2) 3 0x42000 24 c3 (by simp [p0, e1, e2, gEntry]) (by decide) (by decide) (by decide) h3
  have s4 := flat_sect (p0 ++ e1 ++ e2 ++ e3) (e5 ++ e6) (0x40 + 16 * 3) 4 0x43000 16 c4 (by simp [p0, e1, e2, e3, gEntry]) (by decide) (by decide) (by decide) h4
  have s5 := flat_sect (p0 ++ e1 ++ e2 ++ e3 ++ e4) e6 (0x40 + 16 * 4) 5 0x44000 36 c5 (by simp [p0, e1, e2, e3, e4, gEntry]) (by decide) (by decide) (by decide) h5
  have s6 := flat_sect (p0 ++ e1 ++ e2 ++ e3 ++ e4 ++ e5) [] (0x40 + 16 * 5) 6 0x45000 6592 c6 (by simp [p0, e1, e2, e3, e4, e5, gEntry]) (by decide) (by decide) (by decide) h6
  have g : gHead chip c1 c2 c3 c4 c5 c6 = p0 ++ e1 ++ e2 ++ e3 ++ e4 ++ e5 ++ e6 := by simp [gHead, p0, e1, e2, e3, e4, e5, e6]
  simp only [← List.append_assoc, List.append_nil] at s1 s2 s3 s4 s5 s6
  simp only [show List.range 6 = [0, 1, 2, 3, 4, 5] from by decide, List.map_cons, List.map_nil, g]
  rw [s1, s2, s3, s4, s5, s6]

/-- The header of a flash that holds six sections. -/
def gTop (t c p w l k : List Byte) : List Byte :=
  headOf (flat (gHead Config.chipId.toNat (gCrc t) (gCrc c) (gCrc p) (gCrc w) (gCrc l) (gCrc k)))

theorem gTop_field (t c p w l k : List Byte) (o n : Nat) (h : o + n ≤ 160) :
    bytesAt (gTop t c p w l k) o n = bytesAt (flat (gHead Config.chipId.toNat (gCrc t) (gCrc c) (gCrc p) (gCrc w) (gCrc l) (gCrc k))) o n :=
  headOf_bytes _ _ _ (by rw [gHead_length]; exact h)

theorem gTop_leAt (t c p w l k : List Byte) (o n : Nat) (h : o + n ≤ 160) :
    leAt (gTop t c p w l k) o n = leAt (flat (gHead Config.chipId.toNat (gCrc t) (gCrc c) (gCrc p) (gCrc w) (gCrc l) (gCrc k))) o n :=
  headOf_field _ _ _ (by rw [gHead_length]; exact h)

theorem gTop_zeros (t c p w l k : List Byte) (lo hi : Nat) (h0 : 160 ≤ lo) (h1 : hi ≤ 0xFFC) : zeros (gTop t c p w l k) lo hi = true :=
  headOf_zeros _ _ _ (by rw [gHead_length]; exact h0) h1

theorem zeros_leAt (h : List Byte) (o n : Nat) (hz : zeros h o (o + n) = true) : leAt h o n = 0 := by
  refine leNat_zeros _ (fun x hx => ?_)
  have := List.all_eq_true.mp hz x (by simpa [Nat.add_sub_cancel_left] using hx)
  simpa using this

def gHdr (t c p w l k : List Byte) : Header :=
  { bytes := gTop t c p w l k, generation := 0, det := false, count := 6, imageLen := 0, authLen := 0
    sects := (List.range 16).map (fun i => sectAt (gTop t c p w l k) (0x40 + 16 * i)) }

theorem gTop_header (t c p w l k : List Byte) (ht : t.length = 262144) (hc : c.length = 16) (hp : p.length = 24) (hw : w.length = 16)
    (hl : l.length = 36) (hk : k.length = 6592) :
    headerOf (gFlash (gTop t c p w l k) t c p w l k) 0 =
      some (gHdr t c p w l k) := by
  have hlen : (gTop t c p w l k).length = 4096 := headOf_length _ (by rw [gHead_length]; decide)
  obtain ⟨hr, -⟩ := gFlash_reads (gTop t c p w l k) t c p w l k hlen ht hc hp hw hl hk
  obtain ⟨f0, f1, f2, f3, f4, f5, f6, f7⟩ := gHead_fields Config.chipId.toNat (gCrc t) (gCrc c) (gCrc p) (gCrc w) (gCrc l) (gCrc k) Config.chipId.isLt
  have crc : leAt (gTop t c p w l k) 0xFFC 4 = (crc32 ((gTop t c p w l k).take 0xFFC)).toNat := headOf_crc _ (by rw [gHead_length]; decide)
  have g : leAt (gTop t c p w l k) 0x10 4 = 0 := by
    rw [gTop_leAt _ _ _ _ _ _ _ _ (by decide)]
    exact flat_field _ 5 _ _ _ (by simp [gHead, gEntry]) (by simp [gHead, gEntry]) (by decide)
  have a : leAt (gTop t c p w l k) 0x140 2 = 0 := zeros_leAt _ _ _ (gTop_zeros _ _ _ _ _ _ _ _ (by decide) (by decide))
  have g0 : leAt (gTop t c p w l k) 0 4 = 0x49474C59 := by rw [gTop_leAt _ _ _ _ _ _ _ _ (by decide), f0]
  have g3 : leAt (gTop t c p w l k) 7 1 = 0 := by rw [gTop_leAt _ _ _ _ _ _ _ _ (by decide), f3]
  have g5 : leAt (gTop t c p w l k) 0x18 1 = 6 := by rw [gTop_leAt _ _ _ _ _ _ _ _ (by decide), f5]
  have g6 : leAt (gTop t c p w l k) 0x14 4 = 0 := by rw [gTop_leAt _ _ _ _ _ _ _ _ (by decide), f6]
  unfold headerOf
  simp only [show bankBase 0 = 0 from rfl, hr, crc, a, g, g0, g3, g5, g6]
  simp [gHdr]

theorem badEntry_none (ty off len c : Nat) (h1 : ¬ ty > 9) (h2 : off % 4096 = 0) (h3 : ¬ off < 0x1000) (h4 : len ≠ 0) (h5 : ¬ off + len > 0x1000000) :
    badEntry ⟨ty, 0, 0, off, len, c⟩ = none := by
  simp [badEntry, h1, h2, h3, h4, h5]
theorem clash_after (x y : Sect) (h1 : y.off + y.len ≤ x.off) (h2 : x.ty ≠ y.ty) : clash x y = false := by
  have : ¬ x.off < y.off + y.len := by omega
  simp [clash, this, h2]
def gSects (c1 c2 c3 c4 c5 c6 : Nat) : List Sect :=
 [⟨1, 0, 0, 0x1000, 262144, c1⟩, ⟨2, 0, 0, 0x41000, 16, c2⟩, ⟨3, 0, 0, 0x42000, 24, c3⟩, ⟨4, 0, 0, 0x43000, 16, c4⟩,
       ⟨5, 0, 0, 0x44000, 36, c5⟩, ⟨6, 0, 0, 0x45000, 6592, c6⟩]
theorem gSects_entries (c1 c2 c3 c4 c5 c6 : Nat) : (gSects c1 c2 c3 c4 c5 c6).findSome? badEntry = none := by
  simp only [gSects, List.findSome?_cons, List.findSome?_nil]
  rw [badEntry_none 1 _ _ _ (by decide) (by decide) (by decide) (by decide) (by decide), badEntry_none 2 _ _ _ (by decide) (by decide) (by decide) (by decide) (by decide),
    badEntry_none 3 _ _ _ (by decide) (by decide) (by decide) (by decide) (by decide), badEntry_none 4 _ _ _ (by decide) (by decide) (by decide) (by decide) (by decide),
    badEntry_none 5 _ _ _ (by decide) (by decide) (by decide) (by decide) (by decide), badEntry_none 6 _ _ _ (by decide) (by decide) (by decide) (by decide) (by decide)]
theorem clashing_none : ∀ (l seen : List Sect), (∀ x, x ∈ l → ∀ y, y ∈ seen → y.off + y.len ≤ x.off ∧ x.ty ≠ y.ty) →
    l.Pairwise (fun y x => y.off + y.len ≤ x.off ∧ x.ty ≠ y.ty) → clashing seen l = none := by
  intro l
  induction l with
  | nil => intro _ _ _; rfl
  | cons e r ih =>
    intro seen h hp
    obtain ⟨hp1, hp2⟩ := List.pairwise_cons.mp hp
    have : seen.any (clash e) = false := by
      rw [List.any_eq_false]
      intro y hy
      obtain ⟨h1, h2⟩ := h e (by simp) y hy
      simp [clash_after e y h1 h2]
    simp only [clashing, this]
    refine ih (e :: seen) (fun x hx y hy => ?_) hp2
    rcases List.mem_cons.mp hy with rfl | hy
    · exact hp1 x hx
    · exact h x (by simp [hx]) y hy
theorem gSects_apart (c1 c2 c3 c4 c5 c6 : Nat) : clashing [] (gSects c1 c2 c3 c4 c5 c6) = none := by
  refine clashing_none _ [] (by simp) ?_
  have : ((gSects c1 c2 c3 c4 c5 c6).map (fun s => (s.ty, s.off, s.len))).Pairwise (fun y x => y.2.1 + y.2.2 ≤ x.2.1 ∧ x.1 ≠ y.1) := by
    have : (gSects c1 c2 c3 c4 c5 c6).map (fun s => (s.ty, s.off, s.len)) =
      [(1, 0x1000, 262144), (2, 0x41000, 16), (3, 0x42000, 24), (4, 0x43000, 16), (5, 0x44000, 36), (6, 0x45000, 6592)] := rfl
    rw [this]; decide
  exact List.pairwise_map.mp this
theorem gSects_present (h : Header) (c1 c2 c3 c4 c5 c6 : Nat) (hu : h.used = gSects c1 c2 c3 c4 c5 c6) : absent h = none := by
  simp [absent, hu, gSects]; omega
theorem gTop_used (t c p w l k : List Byte) (h : Header) (hs : h.sects = (List.range 16).map (fun i => sectAt (gTop t c p w l k) (0x40 + 16 * i)))
    (hn : h.count = 6) :
    h.used = gSects (gCrc t) (gCrc c) (gCrc p) (gCrc w) (gCrc l) (gCrc k) := by
  have crc (x : List Byte) : gCrc x < 256 ^ 4 := (crc32 x).isLt
  have key := gHead_sects Config.chipId.toNat (gCrc t) (gCrc c) (gCrc p) (gCrc w) (gCrc l) (gCrc k) (crc t) (crc c) (crc p) (crc w) (crc l) (crc k)
  have same : (List.range 6).map (fun i => sectAt (gTop t c p w l k) (0x40 + 16 * i)) =
      (List.range 6).map (fun i => sectAt (flat (gHead Config.chipId.toNat (gCrc t) (gCrc c) (gCrc p) (gCrc w) (gCrc l) (gCrc k))) (0x40 + 16 * i)) := by
    refine List.map_congr_left (fun i hi => headOf_sect _ _ ?_)
    rw [gHead_length]
    have := List.mem_range.mp hi
    omega
  unfold Header.used
  rw [hs, hn, ← List.map_take, show (List.range 16).take 6 = List.range 6 from by decide, same, key]
  rfl

theorem check_passes (h : Header) (g1 : leAt h.bytes 4 2 = 1) (g2 : leAt h.bytes 6 1 = 0) (g3 : leAt h.bytes 7 1 = 0)
    (g4 : leAt h.bytes 8 8 = Config.chipId.toNat) (z1 : zeros h.bytes 0x19 0x20 = true) (z2 : zeros h.bytes 0x142 0x180 = true)
    (z3 : zeros h.bytes 0x580 0xFFC = true) (z4 : zeros h.bytes (0x40 + 16 * h.count) 0x140 = true) (hn : h.count = 6) (ha : h.authLen = 0)
    (hi : h.imageLen = 0) (c1 c2 c3 c4 c5 c6 : Nat) (hu : h.used = gSects c1 c2 c3 c4 c5 c6) : headerCheck h false = none := by
  have e1 : h.used.findSome? badEntry = none := by rw [hu]; exact gSects_entries ..
  have e2 : clashing [] h.used = none := by rw [hu]; exact gSects_apart ..
  have e3 := gSects_present h c1 c2 c3 c4 c5 c6 hu
  unfold headerCheck
  simp only [g1, g2, g3, g4, ha, hi, z1, z2, z3, z4, e1, e2, e3]
  simp [hn]

theorem gTop_check (t c p w l k : List Byte) (h : Header) (hb : h.bytes = gTop t c p w l k) (hn : h.count = 6) (ha : h.authLen = 0) (hi : h.imageLen = 0)
    (hu : h.used = gSects (gCrc t) (gCrc c) (gCrc p) (gCrc w) (gCrc l) (gCrc k)) : headerCheck h false = none := by
  obtain ⟨f0, f1, f2, f3, f4, f5, f6, f7⟩ := gHead_fields Config.chipId.toNat (gCrc t) (gCrc c) (gCrc p) (gCrc w) (gCrc l) (gCrc k) Config.chipId.isLt
  refine check_passes h ?_ ?_ ?_ ?_ ?_ ?_ ?_ ?_ hn ha hi _ _ _ _ _ _ hu <;> (try rw [hn]) <;> rw [hb]
  · rw [gTop_leAt _ _ _ _ _ _ _ _ (by decide), f1]
  · rw [gTop_leAt _ _ _ _ _ _ _ _ (by decide), f2]
  · rw [gTop_leAt _ _ _ _ _ _ _ _ (by decide), f3]
  · rw [gTop_leAt _ _ _ _ _ _ _ _ (by decide), f4]
  · unfold zeros; rw [gTop_field _ _ _ _ _ _ _ _ (by decide), f7]; decide
  · exact gTop_zeros _ _ _ _ _ _ _ _ (by decide) (by decide)
  · exact gTop_zeros _ _ _ _ _ _ _ _ (by decide) (by decide)
  · exact gTop_zeros _ _ _ _ _ _ _ _ (by decide) (by decide)

/-- A body that its own checks pass, in a block of the build 0 and an image without DET. -/
def gPasses (ty : Nat) (d : List Byte) : Prop :=
  ∀ b : Block, b.isV = false → b.img.staged.det = false → lowestCode (b.loadBody ty d).codes = none

theorem gPasses_table (d : List Byte) (hl : d.length = 262144) (hz : ∀ x, x ∈ d → x = 0) : gPasses 1 d := by
  intro b _ _
  have : ((leWords 2 d).any (fun v => v / 32 > 1300)) = false := by
    rw [List.any_eq_false]
    intro v hv
    rw [leWords_zeros 2 d hz v hv]; decide
  simp [Block.loadBody, Block.loadTable, hl, this, codeIf, lowestCode]

theorem gPasses_cal (d : List Byte) (hl : d.length = 6592) (hz : ∀ x, x ∈ d → x = 0) : gPasses 6 d := by
  intro b _ _
  have : ((pairs (bytesAt d 1088 4352)).any (fun c => c.1 > 0x3FF)) = false := by
    rw [List.any_eq_false]
    intro v hv
    rw [pairs_zeros _ (fun x hx => hz x (List.mem_of_mem_drop (List.mem_of_mem_take hx))) v hv]; decide
  simp [Block.loadBody, Block.loadCalibration, hl, this, codeIf, lowestCode]

theorem gPasses_coef (d : List Byte) (h1 : loadRecs d.length (d.drop 16) = some []) (h2 : leAt d 0 1 = 2) (h3 : leAt d 1 1 = 0)
    (h4 : zeros d 2 16 = true) (h5 : d.length = 16) : gPasses 2 d := by
  intro b hv _
  simp only [Block.loadBody, Block.loadCoefs, h1]
  simp [h2, h3, h4, h5, hv, recCodes, codeIf, lowestCode]

theorem gPasses_prog (d : List Byte) (h4 : d.length = 24) (h3 : zeros d 12 16 = true) (h2 : (leWords 4 (d.drop 16)).length = 2)
    (h1 : (checkProgram (leWords 4 (d.drop 16)) (leAt d 0 2) (leAt d 2 2) (leAt d 4 4) (leAt d 8 4) false).code = none) : gPasses 3 d := by
  intro b _ hd
  simp [Block.loadBody, Block.loadProgram, h1, h2, h3, h4, hd, codeIf, lowestCode, memInstrs]

theorem gPasses_weights (d : List Byte) (h : (loadRecs d.length d).map (recCodes true) = some []) : gPasses 4 d := by
  intro b _ _
  obtain ⟨rs, hr, hc⟩ := Option.map_eq_some_iff.mp h
  simp [Block.loadBody, Block.loadWeights, hr, hc, lowestCode]

theorem gPasses_limits (d : List Byte) (h1 : leAt d 32 4 = 0) (h2 : d.length = 36) (h3 : d.drop 36 = []) (h4 : chunks 8 (bytesAt d 36 0) = [])
    (hp : Config.pmbTable [] = some (false, [], [])) : gPasses 5 d := by
  intro b _ _
  simp [Block.loadBody, Block.loadLimits, h1, h2, h3, h4, hp, codeIf, lowestCode]

/-- A flash of six sections whose bodies pass: its header passes, and so does every section. -/
theorem gGood (t c p w l k : List Byte) (ht : t.length = 262144) (hc : c.length = 16) (hg : p.length = 24) (hw : w.length = 16)
    (hl : l.length = 36) (hk : k.length = 6592) (b1 : gPasses 1 t) (b2 : gPasses 2 c) (b3 : gPasses 3 p) (b4 : gPasses 4 w) (b5 : gPasses 5 l)
    (b6 : gPasses 6 k) :
    ∃ (f : Flash) (h : Header), primaryOf (headerOf f 0) (headerOf f 1) = 0 ∧ headerOf f 0 = some h ∧ f.sfdpOk = true ∧ 0x04000000 ≤ f.density ∧
      headerCheck h false = none ∧ h.used ≠ [] ∧
      ∀ e, e ∈ h.used → (sectionBytes f 0 (headerOf f 1) e).2 ≠ 3 ∧
        ∀ b : Block, b.isV = false → b.img.staged.det = h.det →
          lowestCode (b.loadBody e.ty (sectionBytes f 0 (headerOf f 1) e).1).codes = none := by
  have hlen : (gTop t c p w l k).length = 4096 := headOf_length _ (by rw [gHead_length]; decide)
  obtain ⟨-, r1, r2, r3, r4, r5, r6⟩ := gFlash_reads (gTop t c p w l k) t c p w l k hlen ht hc hg hw hl hk
  have he := gFlash_erased (gTop t c p w l k) t c p w l k hlen ht hc hg hw hl hk
  have hh := gTop_header t c p w l k ht hc hg hw hl hk
  have h1 : headerOf (gFlash (gTop t c p w l k) t c p w l k) 1 = none := by
    have : leAt (List.replicate 4096 (0xFF : Byte)) 0 4 = 0xFFFFFFFF := by decide +kernel
    have hne : ¬ (0xFFFFFFFF : Nat) = 0x49474C59 := by decide
    unfold headerOf
    simp only [show bankBase 1 = 0x02000000 from rfl, he, this, hne, decide_false, Bool.false_and, Bool.false_eq_true, if_false]
  have hs : ∀ (a ty n : Nat) (d : List Byte), readFlash (gFlash (gTop t c p w l k) t c p w l k) a n = d →
      sectionBytes (gFlash (gTop t c p w l k) t c p w l k) 0 none ⟨ty, 0, 0, a, n, gCrc d⟩ = (d, 1) := by
    intro a ty n d hr
    have hr' : readFlash (gFlash (gTop t c p w l k) t c p w l k) (bankBase 0 + a) n = d := by
      rw [show bankBase 0 + a = a from Nat.zero_add a]; exact hr
    simp [sectionBytes, hr', gCrc]
  have hu := gTop_used t c p w l k (gHdr t c p w l k) rfl rfl
  refine ⟨_, _, by rw [hh, h1]; rfl, hh, rfl, Nat.le_refl _, gTop_check t c p w l k _ rfl rfl rfl rfl hu, by rw [hu]; simp [gSects], ?_⟩
  intro e hm
  rw [hu] at hm
  rw [h1]
  simp only [gSects, List.mem_cons, List.not_mem_nil, or_false] at hm
  rcases hm with rfl | rfl | rfl | rfl | rfl | rfl
  · rw [hs _ _ _ _ r1]; exact ⟨(by decide : (1 : Nat) ≠ 3), b1⟩
  · rw [hs _ _ _ _ r2]; exact ⟨(by decide : (1 : Nat) ≠ 3), b2⟩
  · rw [hs _ _ _ _ r3]; exact ⟨(by decide : (1 : Nat) ≠ 3), b3⟩
  · rw [hs _ _ _ _ r4]; exact ⟨(by decide : (1 : Nat) ≠ 3), b4⟩
  · rw [hs _ _ _ _ r5]; exact ⟨(by decide : (1 : Nat) ≠ 3), b5⟩
  · rw [hs _ _ _ _ r6]; exact ⟨(by decide : (1 : Nat) ≠ 3), b6⟩

def gProg : List Byte := flat [(2, 0), (2, 1), (12, 0), (4, 0x04000000), (4, 0x04000000)]

/-- A flash whose image passes every check, where an empty PMBus table is one (the spec gives the table no byte format). -/
theorem wit_GoodImage (hp : Config.pmbTable [] = some (false, [], [])) :
    (wLoad.blk.Calm ∧ wLoad.blk.img.stage = 1 ∧ wLoad.blk.img.flashRdy = true ∧ wLoad.blk.img.memTested = true ∧
      wLoad.blk.img.accepted = false ∧ wLoad.blk.img.limitRegs.all writeAllowed = true) ∧
    ∃ (f : Flash) (h : Header), primaryOf (headerOf f 0) (headerOf f 1) = 0 ∧ headerOf f 0 = some h ∧ f.sfdpOk = true ∧ 0x04000000 ≤ f.density ∧
      headerCheck h false = none ∧ h.used ≠ [] ∧
      ∀ e, e ∈ h.used → (sectionBytes f 0 (headerOf f 1) e).2 ≠ 3 ∧
        ∀ b : Block, b.isV = false → b.img.staged.det = h.det →
          lowestCode (b.loadBody e.ty (sectionBytes f 0 (headerOf f 1) e).1).codes = none :=
  ⟨by decide +kernel, gGood (List.replicate 262144 0) (2 :: List.replicate 15 0) gProg (4 :: List.replicate 15 0) (List.replicate 36 0) (List.replicate 6592 0)
    List.length_replicate (by decide) (by decide) (by decide) (by decide) List.length_replicate
    (gPasses_table _ List.length_replicate (fun _ h => List.eq_of_mem_replicate h))
    (gPasses_coef _ (by decide) (by decide) (by decide) (by decide) (by decide))
    (gPasses_prog _ (by decide) (by decide) (by decide) (by decide +kernel))
    (gPasses_weights _ (by decide))
    (gPasses_limits _ (by decide) (by decide) (by decide) (by decide) hp)
    (gPasses_cal _ List.length_replicate (fun _ h => List.eq_of_mem_replicate h))⟩

/-- A flash whose header is valid and refused: its format is 0. -/
theorem wit_RefusedHeader : ∃ (f : Flash) (h : Header), primaryOf (headerOf f 0) (headerOf f 1) = 0 ∧ headerOf f 0 = some h ∧ f.sfdpOk = true ∧
    0x04000000 ≤ f.density ∧ headerCheck h false = some (0x05, 0) := by
  have hl : (headOf (flat [(4, 0x49474C59)])).length = 4096 := headOf_length _ (by decide)
  have hm : leAt (headOf (flat [(4, 0x49474C59)])) 0 4 = 0x49474C59 := by rw [headOf_field _ _ _ (by decide)]; decide
  have hz : leAt (headOf (flat [(4, 0x49474C59)])) 4 2 = 0 := zeros_leAt _ _ _ (headOf_zeros _ _ _ (by decide) (by decide))
  have hc := headOf_crc (flat [(4, 0x49474C59)]) (by decide)
  generalize headOf (flat [(4, 0x49474C59)]) = g at *
  have hr : readFlash ⟨[⟨0, g⟩], true, 0x04000000⟩ (bankBase 0) 4096 = g := by
    rw [← hl]; exact readFlash_seg [] [] 0 g true _ (by simp) (by simp)
  have he : readFlash ⟨[⟨0, g⟩], true, 0x04000000⟩ (bankBase 1) 4096 = List.replicate 4096 0xFF := by
    simp only [readFlash, List.foldr]
    exact overlay_below _ _ _ (by show 0 + g.length ≤ 0x02000000; omega)
  have h1 : headerOf ⟨[⟨0, g⟩], true, 0x04000000⟩ 1 = none := by
    have : leAt (List.replicate 4096 (0xFF : Byte)) 0 4 = 0xFFFFFFFF := by decide +kernel
    have hne : ¬ (0xFFFFFFFF : Nat) = 0x49474C59 := by decide
    unfold headerOf
    simp only [he, this, hne, decide_false, Bool.false_and, Bool.false_eq_true, if_false]
  obtain ⟨h, hh, hb⟩ : ∃ h, headerOf ⟨[⟨0, g⟩], true, 0x04000000⟩ 0 = some h ∧ h.bytes = g := by
    unfold headerOf
    simp only [hr, hm, hc, decide_true, Bool.and_self, if_true]
    exact ⟨_, rfl, rfl⟩
  refine ⟨⟨[⟨0, g⟩], true, 0x04000000⟩, h, by rw [hh, h1]; rfl, hh, rfl, Nat.le_refl _, ?_⟩
  unfold headerCheck
  simp only [hb, hz]
  rfl

/-! Well-formed commands: at the boundary of each range a term within it, accepted, and a term beyond it, refused. -/

def tM (bd sb rm ofs : Nat) : MOp := { bd := bd, sb := sb, rm := rm, ofs := ofs }
theorem test_wf_accepts_ports : [Instr.hostRegisterWrite 0 0x3FFFC 0 true, .hostRegisterWrite 0 3 0 false, .energyLoRead 0x3FFFC, .flagW1cClear 0 0x3FFFC 0, .swapRequest 0 15 0,
    .groupSleepRequest 0 31 0, .groupWakeRequest 0 31 0, .fTglCapture 0 255 63 63, .fidxLateTimeout 0 255].all Instr.wf = true := by decide +kernel
theorem test_wf_refuses_ports : [Instr.hostRegisterWrite 0 0x40000 0 true, .energyLoRead 0x40000, .energyLoRead 1,
    .flagW1cClear 0 0x40000 0, .flagW1cClear 0 3 0, .swapRequest 0 16 0, .groupSleepRequest 0 32 0, .groupWakeRequest 0 32 0,
    .fTglCapture 0 256 0 0, .fTglCapture 0 0 64 0, .fTglCapture 0 0 0 64, .fidxLateTimeout 0 256].any Instr.wf = false := by decide +kernel
theorem test_wf_accepts_formats : [Instr.loop 1023 4095, .smov 12 0x3FFFFF, .sadd 12 0x3FFFFF, .cyc 7 [], .tick 7 1, .aflg 7 1,
    .lds (tM 31 15 15 8191) [], .sts (tM 31 15 15 8191), .ldc (tM 31 15 15 8191) [], .wrflg 255].all Instr.wf = true := by decide +kernel
theorem test_wf_refuses_formats : [Instr.loop 0 1, .loop 1024 1, .loop 1 0, .loop 1 4096, .smov 13 0, .smov 0 0x400000, .sadd 13 0,
    .sadd 0 0x400000, .cyc 8 [], .tick 8 0, .tick 0 2, .aflg 8 0, .aflg 0 2, .lds (tM 32 0 0 0) [], .lds (tM 0 16 0 0) [], .sts (tM 0 0 16 0),
    .ldc (tM 0 0 0 8192) [], .wrflg 256].any Instr.wf = false := by decide +kernel
def tX (ba ac km1 mtm1 ngm1 sb sh : Nat) : XOp :=
  { ba := ba, ac := ac, km1 := km1, mtm1 := mtm1, ngm1 := ngm1, sb := sb, am := false, sh := sh }
theorem test_wf_accepts_arrays : [Instr.mvb (tX 24 3 31 0 3 15 0) [] false, .mvb (tX 24 3 31 0 3 15 2) [] false, .mvr (tX 24 3 31 15 3 15 0) [] false,
    .mvp (tX 24 3 31 1 3 15 0) [] false, .mvw (tX 16 3 31 15 3 15 0) [] false].all Instr.wf = true := by decide +kernel
theorem test_wf_refuses_arrays : [Instr.mvb (tX 25 3 31 0 3 15 0) [] false, .mvb (tX 24 4 31 0 3 15 0) [] false, .mvb (tX 0 0 32 0 0 0 0) [] false,
    .mvb (tX 0 0 0 16 0 0 0) [] false, .mvb (tX 0 0 0 0 4 0 0) [] false, .mvb (tX 0 0 0 0 0 16 0) [] false, .mvb (tX 0 0 0 0 0 0 3) [] false,
    .mvb (tX 0 0 0 1 3 0 0) [] false, .mvr (tX 0 0 0 0 0 0 1) [] false, .mvp (tX 0 0 0 2 3 0 0) [] false, .mvp (tX 0 0 0 0 0 0 1) [] false,
    .mvw (tX 17 0 31 0 0 0 0) [] false, .mvw (tX 0 0 0 0 0 0 1) [] false].any Instr.wf = false := by decide +kernel
def tR (bd ba bb ty fn : Nat) : ROp := { bd := bd, ba := ba, bb := bb, ty := ty, fn := fn }
theorem test_wf_accepts_vectors : [Instr.acrd (tR 31 3 0 2 255), .acxw (tR 3 3 0 0 255), .redx (tR 31 31 0 2 0), .reda (tR 31 31 0 2 0) [3, 1, 2, 0],
    .vadd (tR 31 31 31 2 0), .vsub (tR 31 31 31 2 0), .vmul (tR 31 31 31 2 0), .vfma (tR 31 31 31 2 0), .vcvt (tR 31 31 0 2 2), .vxw (tR 31 31 0 2 0),
    .vsuml (tR 31 31 0 2 0), .prng (tR 31 0 0 2 0), .vmin (tR 31 31 31 2 0), .vmax (tR 31 31 31 2 0), .vclmp (tR 31 31 31 2 0),
    .vmini (tR 31 31 31 2 255), .vcmp (tR 31 31 31 2 4), .vsel (tR 31 31 0 0 15), .vsell (tR 31 31 31 2 0), .tlop (tR 31 31 0 2 0) [],
    .tluf (tR 31 31 0 2 15) [], .rdsnp (tR 31 0 0 0 7), .rdhint (tR 31 0 0 0 1), .rdact (tR 31 0 0 0 7), .rdasy (tR 31 0 0 0 7),
    .wrout (tR 0 31 0 0 6), .rsend (tR 0 31 0 0 6) none].all Instr.wf = true := by decide +kernel
theorem test_wf_refuses_vectors : [Instr.acrd (tR 0 4 0 0 0), .acrd (tR 0 0 1 0 0), .acrd (tR 0 0 0 3 0), .acxw (tR 4 0 0 0 0), .acxw (tR 0 4 0 0 0),
    .acxw (tR 0 0 0 1 0), .redx (tR 0 0 1 0 0), .redx (tR 0 0 0 0 1), .reda (tR 0 0 0 0 0) [3, 1, 2, 2], .reda (tR 0 0 0 0 0) [0, 1, 2, 3, 0],
    .vadd (tR 32 0 0 0 0), .vadd (tR 0 32 0 0 0), .vadd (tR 0 0 32 0 0), .vadd (tR 0 0 0 3 0), .vadd (tR 0 0 0 0 1), .vsub (tR 0 0 0 0 1),
    .vmul (tR 0 0 0 0 1), .vfma (tR 0 0 0 0 1), .vcvt (tR 0 0 0 0 3), .vcvt (tR 0 0 1 0 0), .vxw (tR 0 0 0 0 1), .vsuml (tR 0 0 1 0 0),
    .prng (tR 0 0 0 0 0), .prng (tR 0 1 0 2 0), .vmin (tR 0 0 0 0 1), .vmax (tR 0 0 0 0 1), .vclmp (tR 0 0 0 0 1)].any Instr.wf = false := by decide +kernel
theorem test_wf_refuses_selects : [Instr.vmini (tR 0 0 0 3 0), .vmini (tR 0 0 0 0 256), .vcmp (tR 0 0 0 0 5), .vsel (tR 0 0 0 1 0), .vsel (tR 0 0 0 0 16),
    .vsell (tR 0 0 0 0 1), .tlop (tR 0 0 0 1 0) [], .tluf (tR 0 0 0 0 16) [], .rdsnp (tR 0 0 0 0 8), .rdsnp (tR 0 1 0 0 0), .rdhint (tR 0 0 0 0 2),
    .rdact (tR 0 0 0 0 8), .rdasy (tR 0 0 0 0 8), .wrout (tR 0 0 0 0 7), .wrout (tR 1 0 0 0 0), .rsend (tR 0 0 0 0 0) none,
    .rsend (tR 0 0 1 0 6) none].any Instr.wf = false := by decide +kernel
theorem test_wf_accepts_units : [Instr.scrubAccess 0 5 ⟨524287, false⟩ true false, .scrubRemap 1 32767, .fastLoopPeriod 0 15 (List.replicate 16 0) [],
    .senseFrame 1087 0, .fastLimitTrip 1087, .safeZeroCross 1087, .safeLowSideTimeout 1087, .plaitRotation 15, .droopEpisodeStart 0 255 15,
    .droopRound 255, .droopEpisodeEnd 0 255, .droopAssertMinExpiry 0 255, .swapinStart 0 15, .sackReceived 15 0, .swapinSackTimeout 0 15,
    .calZeroDone 0 15 0, .calDelayDone 0 15 0 0, .calPulseDone 0 15, .regionSenseConversion 271 4095, .probeStart 0 255,
    .probeEnd 0 255, .ovTrip 0 255 3, .uvTimeout 0 255, .detectorStuckTimeout 0 255 3, .raiseSlowTimeout 0 255, .converterCheckFail 255,
    .arbiterDone 0 15 4095, .gainTRead 0 1087 0 0, .gainTRetry 0 1087 0 0, .phtrigConfig 1087 0x7FF, .auxConversion 0 15 4095,
    .auxPwmFallback 0 15].all Instr.wf = true := by decide +kernel
theorem test_wf_refuses_units : [Instr.scrubAccess 0 5 ⟨524288, false⟩ true false, .scrubRemap 1 32768, .fastLoopPeriod 0 16 (List.replicate 16 0) [],
    .fastLoopPeriod 0 0 (List.replicate 15 0) [], .senseFrame 1088 0, .fastLimitTrip 1088, .safeZeroCross 1088, .safeLowSideTimeout 1088,
    .plaitRotation 16, .droopEpisodeStart 0 256 0, .droopEpisodeStart 0 0 16, .droopRound 256, .droopEpisodeEnd 0 256,
    .droopAssertMinExpiry 0 256, .swapinStart 0 16, .sackReceived 16 0, .swapinSackTimeout 0 16, .calZeroDone 0 16 0, .calDelayDone 0 16 0 0,
    .calPulseDone 0 16, .regionSenseConversion 272 0, .regionSenseConversion 0 4096, .probeStart 0 256, .probeEnd 0 256,
    .ovTrip 0 256 0, .ovTrip 0 0 4].any Instr.wf = false := by decide +kernel
theorem test_wf_accepts_regions : [Instr.refSettled 3, .forecastExitStart 0 255, .regionReady 0 255, .softstartStage 0 255, .softstartTimeout 0 255,
    .detectorSelfTestDone 0 255 15 15, .dawnStage 0 255, .duskStage 0 255, .resetDuskStart 0 15, .stopRegionDown 0 255,
    .barrierStale 31 0].all Instr.wf = true := by decide +kernel
theorem test_wf_refuses_regions : [Instr.uvTimeout 0 256, .detectorStuckTimeout 0 256 0, .detectorStuckTimeout 0 0 4, .raiseSlowTimeout 0 256,
    .converterCheckFail 256, .arbiterDone 0 16 0, .arbiterDone 0 0 4096, .gainTRead 0 1088 0 0, .gainTRetry 0 1088 0 0, .phtrigConfig 1088 0,
    .auxConversion 0 16 0, .auxConversion 0 0 4096, .auxPwmFallback 0 16, .refSettled 4, .forecastExitStart 0 256, .regionReady 0 256,
    .softstartStage 0 256, .softstartTimeout 0 256, .detectorSelfTestDone 0 256 0 0, .detectorSelfTestDone 0 0 16 0, .detectorSelfTestDone 0 0 0 16,
    .dawnStage 0 256, .duskStage 0 256, .resetDuskStart 0 16, .stopRegionDown 0 256, .barrierStale 32 0].any Instr.wf = false := by decide +kernel

/-! Effects, with results worked out by hand from the rules named. -/

/-- The block after a command; the block before where it answers no next state. -/
def after (c : Instr) (s : State) : Block := match exec c s with | .next t => t.blk | _ => s.blk

/-- 1.0 + 1.0 is 2.0, and 1.5 × 1.5 is 2.25, in C18: sign, six exponent bits of bias 31, eleven fraction bits (R212). -/
theorem test_c18_add : (laneAdd 0 0x0F800 0x0F800).bits = 0x10000 := by decide +kernel
theorem test_c18_mul : (laneMul 0 0x0FC00 0x0FC00).bits = 0x10100 := by decide +kernel
/-- 32,767 + 1 saturates in I16 with OVF (R219). -/
theorem test_i16_add_saturates : (laneAdd 2 32767 1).bits % 65536 = 32767 ∧ (laneAdd 2 32767 1).ovf = true := by decide +kernel
/-- A read of the low half of the tick counter returns it (R204). -/
theorem test_tickno_read : (after .ticknoLoRead (mk [(ENG_TICKNO_LO_VAL, 7, 0)])).rdata = 7 := by decide +kernel
/-- The fourth frame in a row that fails its CRC fails its lane (R449). -/
theorem test_fourth_bad_frame : (after (.hoopBadFrame 9 0 (symbolsOf badBody)) (wBad 2)).bit (laneOk 0) = true ∧
    (after (.hoopBadFrame 9 0 (symbolsOf badBody)) (wBad 3)).bit (laneOk 0) = false := by decide +kernel
/-- HALT is one bit of ENG_CTL, stored by the write (R197). -/
theorem test_eng_halt : (after (.engHalt 5) mk).bit ENG_CTL_HALT = true := by decide +kernel
/-- SMOV writes the immediate to Sd (Table 6-4). -/
theorem test_smov : (after (.smov 3 0x155555) wInitRun).scalar 2 3 = 0x155555 := by decide +kernel
/-- An operation outside INIT leaves S8 as it was (R173). -/
theorem test_smov_frozen : (after (.smov 8 1) wRows).scalar 0 8 = wRows.blk.scalar 0 8 := by decide +kernel

end Sys2Proof.Tests
end

section
/-! PROOFS. Writes and reads on the register port: a plain write stores the writable fields of its register, a read takes the word of
its address with the latch of a LO half, and the writes of FLT_CFG and CLK_GATE keep what their rules fix (R4 to R6, R20, R25, R204,
R282, R346, R382, R400, R407). -/

namespace Sys2Proof.Machine

theorem exec_hostRegisterWrite (s : State) (t a : Nat) (data : Word) (we : Bool) :
    exec (.hostRegisterWrite t a data we) s = s.run (fun b =>
      if !we then (b.at t).portRead a
      else if a % 4 = 0 then (b.at t).hostWrite a data (fun b d => b.applyWord a d) else (b.at t).unalignedWrite a data) := rfl

/-- An aligned write with no host error completes with the effect of its word on the block that has seen the transfer. -/
theorem completes_hostWrite (s : State) (t a : Nat) (data : Word) (Q : Block → Prop) (hc : s.blk.Calm)
    (hp : s.blk.PlainWrite a data) (ha : a % 4 = 0) (hq : Q (((s.blk.setNow t).port a data).applyWord a data)) :
    Completes (.hostRegisterWrite t a data true) s Q := by
  refine s.run_completes _ _ Q (exec_hostRegisterWrite s t a data true) ?_
  have hp' : (s.blk.setNow t).PlainWrite a data := hp
  simpa [s.blk.at_calm t hc, ha, Block.hostWrite_plain _ a data _ hp'] using hq

/-- A register that `ownRule` does not name stores its writable fields, and has the W1C bits written 1 cleared. -/
theorem Block.applyWord_of_ownRule_false (b : Block) (a : Nat) (data : Word) (h : ownRule a = false) :
    b.applyWord a data = (b.storeWritable a data).writeFlags a data := by
  simp only [ownRule, Bool.or_eq_false_iff, List.contains_cons, List.contains_nil, beq_eq_false_iff_ne] at h
  simp [Block.applyWord, h]

theorem Block.storeWritable_of_findReg {b : Block} {a : Nat} {d : RegDef} (data : Word) (h : findReg a = some d) :
    b.storeWritable a data = b.setReg a ((b.reg a &&& ~~~(d.rw ||| d.rws)) ||| (data &&& (d.rw ||| d.rws))) := by
  simp [Block.storeWritable, h]

theorem Block.storeWritable_of_no_register {b : Block} {a : Nat} (data : Word) (h : findReg a = none) : b.storeWritable a data = b := by
  simp [Block.storeWritable, h]

theorem Block.writeFlags_of_no_w1c {b : Block} {a : Nat} {data : Word} (h : ∀ d, findReg a = some d → data &&& d.w1c = 0) :
    b.writeFlags a data = b := by
  unfold Block.writeFlags
  split
  · rfl
  · next d hd => rw [if_pos (h d hd)]

/-- A transfer by itself leaves every register. -/
@[simp] theorem Block.reg_port_setNow (b : Block) (t a c : Nat) (data : Word) : ((b.setNow t).port a data).reg c = b.reg c := by
  simp [Block.reg]

/-- What a transfer whose effect is to store one word changes. -/
theorem Block.portOnly_setReg (b : Block) (t a c : Nat) (data w : Word) : b.PortOnly (((b.setNow t).port a data).setReg c w) := by
  have h := (b.setNow t).port_only a data
  unfold Block.PortOnly at h ⊢
  rw [h]; rfl

theorem Block.portOnly_port_setNow (b : Block) (t a : Nat) (data : Word) : b.PortOnly ((b.setNow t).port a data) := by
  have h := (b.setNow t).port_only a data
  unfold Block.PortOnly at h ⊢
  rw [h]; rfl

/-- A transfer whose effect is to store one word keeps every other. -/
theorem Block.regsKept_port_setReg (b : Block) (t a : Nat) (data w : Word) : b.RegsKept (((b.setNow t).port a data).setReg a w) [a] := by
  intro c hc
  have hne : c ≠ a := by simpa using hc
  simp [Block.reg_setReg_other _ w hne]

@[simp] theorem Block.now_port_setNow (b : Block) (t a : Nat) (data : Word) : ((b.setNow t).port a data).now = max b.now t := by
  simp only [Block.port, Block.restartEvent, Block.note]
  split <;> split <;> rfl

theorem plainRegisterWrite : Claims.PlainRegisterWrite := by
  intro s t a data hc hp ha hown
  refine ⟨fun d hd hw => completes_hostWrite s t a data _ hc hp ha ?_, fun hnone => completes_hostWrite s t a data _ hc hp ha ?_⟩
  · have hw1c : ∀ e, findReg a = some e → data &&& e.w1c = 0 := fun e he => by
      rw [hd] at he; cases he; exact hw
    rw [Block.applyWord_of_ownRule_false _ a data hown, Block.writeFlags_of_no_w1c hw1c, Block.storeWritable_of_findReg data hd]
    exact ⟨by simp, s.blk.portOnly_setReg .., s.blk.regsKept_port_setReg t a data _, by simp⟩
  · have hw1c : ∀ e, findReg a = some e → data &&& e.w1c = 0 := fun e he => by rw [hnone] at he; cases he
    rw [Block.applyWord_of_ownRule_false _ a data hown, Block.writeFlags_of_no_w1c hw1c, Block.storeWritable_of_no_register data hnone]
    exact ⟨s.blk.portOnly_port_setNow .., fun c _ => by simp⟩

theorem Block.restartEvent_eq (b : Block) :
    b.restartEvent = { b with eng := { b.eng with restartReq := b.eng.restartReq || b.eng.clockStopped } } := by
  unfold Block.restartEvent
  by_cases h : b.eng.clockStopped
  · simp [h]
  · have hr : (b.eng.restartReq || b.eng.clockStopped) = b.eng.restartReq := by simp [h]
    rw [if_neg h, hr]

/-- The block with other data on the register port. -/
def Block.withRead (b : Block) (r : Word) : Block := { b with rdata := r }

theorem Block.openBarrier_withRead (b : Block) (r : Word) (g id slo : Nat) :
    (b.withRead r).openBarrier g id slo = (b.openBarrier g id slo).withRead r := by
  have hH : (b.withRead r).H g = b.H g := rfl
  unfold Block.openBarrier
  rw [hH]
  by_cases h : (b.H g).openBars.any (fun e => e.1 = id)
  · simp [h]
  · by_cases h' : (b.H g).openBars.length ≥ 4
    · simp only [h, h', if_true]
      rfl
    · simp only [h, h', if_false]
      rfl

theorem Block.closeBarrier_withRead (b : Block) (r : Word) (g id t : Nat) :
    (b.withRead r).closeBarrier g id t = (b.closeBarrier g id t).withRead r := by
  have hH : (b.withRead r).H g = b.H g := rfl
  unfold Block.closeBarrier
  rw [hH]
  by_cases h : (b.H g).openBars.any (fun e => e.1 = id)
  · simp only [h, if_true]
    rfl
  · simp only [h]
    rfl

theorem Block.crossHint_withRead (b : Block) (r : Word) (t slo : Nat) (h : BitVec 64) :
    (b.withRead r).crossHint t slo h = (b.crossHint t slo h).withRead r := by
  have hm : ∀ f, (b.withRead r).modH (hintGroup h) f = (b.modH (hintGroup h) f).withRead r := fun _ => rfl
  unfold Block.crossHint
  dsimp only
  split
  · rfl
  · rw [hm, Block.openBarrier_withRead]
  · rw [hm, Block.closeBarrier_withRead]
    rfl
  · rfl
  · rfl

theorem Block.hintsTaken_withRead (b : Block) (r : Word) : (b.withRead r).hintsTaken = b.hintsTaken.withRead r := by
  unfold Block.hintsTaken
  show b.hintQ.foldl _ _ = _
  generalize b.hintQ = q
  induction q generalizing b with
  | nil => rfl
  | cons e q ih => exact (congrArg (q.foldl _) (b.crossHint_withRead r ..)).trans (ih _)

/-- What a host read returns does not depend on the data last read. -/
theorem Block.hostRead_withRead (b : Block) (r : Word) (a : Nat) : (b.withRead r).hostRead a = b.hostRead a := by
  have hg : ∀ g, (b.withRead r).viewGhint g = b.viewGhint g := fun g => by
    unfold Block.viewGhint
    rw [Block.hintsTaken_withRead]
    rfl
  unfold Block.hostRead
  simp only [hg]
  rfl

/-- The readable fields of the word at an address. -/
def Block.readable (b : Block) (a : Nat) : Word := match findReg a with | some d => b.reg a &&& ~~~d.wo | none => 0

/-- A LO half, of TICKNO or of an energy, has no view of its own: a read returns its word (R204, R282). -/
theorem Block.hostRead_loHalf (b : Block) (a : Nat) (h : a = ENG_TICKNO_LO_VAL.base ∨ energyHalf (a + 4) = true) :
    b.hostRead a = b.readable a := by
  have hrange : a % 8 = 0 ∧ (a = 0x10010 ∨ 0x20020 ≤ a ∧ a ≤ 0x229F8) := by
    simp only [energyHalf, Bool.and_eq_true, Bool.or_eq_true, decide_eq_true_eq] at h
    omega
  have hin : ∀ base count, a < base ∨ base + 4 * count ≤ a → ¬ inArray base count a = true := fun base count hb => by
    simp only [inArray, Bool.and_eq_true, decide_eq_true_eq]
    omega
  have hhalf : ¬ energyHalf a = true := by
    have : a % 8 ≠ 4 := by omega
    simp [energyHalf, this]
  have hmdata : ¬ (inArray 0x1002C 4 a && b.eng.noWord) = true := by
    simp [hin 0x1002C 4 (by omega)]
  unfold Block.hostRead
  dsimp only
  rw [if_neg (hin 0x1400 256 (by omega)), if_neg (hin 0x3900 32 (by omega)), if_neg (hin 0xC440 16 (by omega)),
    if_neg (hin 0xC480 16 (by omega)), if_neg (by omega), if_neg (hin 0x38010 4 (by omega)), if_neg (hin 0x38064 3 (by omega)),
    if_neg (by omega), if_neg (by omega), if_neg (by omega), if_neg (by omega), if_neg (by omega), if_neg (hin 0x3C100 64 (by omega)),
    if_neg hmdata, if_neg (by omega), if_neg (by omega), if_neg (by omega), if_neg hhalf, if_neg (by omega)]
  rfl

/-- An aligned read takes the word of its address, with the latch of a LO half. -/
theorem Block.portRead_aligned (b : Block) (a : Nat) (ha : a % 4 = 0) :
    b.portRead a = { b.restartEvent with
      rdata := b.restartEvent.hostRead a
      tickHi := if a = ENG_TICKNO_LO_VAL.base then b.reg ENG_TICKNO_HI_VAL.base else b.tickHi
      energyHi := if energyHalf (a + 4) then b.energyHi.set (fun _ => none) (a + 4) (some (b.reg (a + 4))) else b.energyHi } := by
  have hmod : ¬ (a % 4 != 0) = true := by simp [ha]
  unfold Block.portRead
  dsimp only
  rw [if_neg hmod, Block.restartEvent_eq]
  by_cases h1 : a = ENG_TICKNO_LO_VAL.base
  · have h2 : ¬ energyHalf (a + 4) = true := by rw [h1]; decide
    rw [if_pos h1, if_pos h1, if_neg h2]
    rfl
  · by_cases h2 : energyHalf (a + 4) = true
    · rw [if_neg h1, if_neg h1, if_pos h2, if_pos h2]
      rfl
    · rw [if_neg h1, if_neg h1, if_neg h2, if_neg h2]

/-- An aligned read leaves what the same read returns: what it latches is the HI half of another address. -/
theorem Block.hostRead_portRead (b : Block) (a : Nat) (ha : a % 4 = 0) : (b.portRead a).hostRead a = b.restartEvent.hostRead a := by
  rw [Block.portRead_aligned b a ha]
  by_cases h : a = ENG_TICKNO_LO_VAL.base ∨ energyHalf (a + 4) = true
  · rw [Block.hostRead_loHalf _ a h, Block.hostRead_loHalf _ a h]
    rfl
  · obtain ⟨h1, h2⟩ := not_or.mp h
    rw [if_neg h1, if_neg h2, Block.restartEvent_eq]
    exact Block.hostRead_withRead _ _ a

theorem plainRegisterRead : Claims.PlainRegisterRead := by
  intro s t a data hc
  dsimp only
  have hrun := exec_hostRegisterWrite s t a data false
  refine ⟨fun ha => s.run_completes _ _ _ hrun ?_, fun ha => s.run_completes _ _ _ hrun ?_⟩
  · simp only [Bool.not_false, if_true, s.blk.at_calm t hc]
    refine ⟨?_, ?_, ?_, ?_⟩
    · rw [Block.hostRead_portRead _ a ha, Block.portRead_aligned _ a ha]
    · rw [Block.portRead_aligned _ a ha, Block.restartEvent_eq]
      rfl
    · rw [Block.portRead_aligned _ a ha, Block.restartEvent_eq]
      rfl
    · rw [Block.portRead_aligned _ a ha, Block.restartEvent_eq]
      exact ⟨fun h => if_neg h, fun h => if_pos h, fun h => by simp [h], fun h => by simp [h]⟩
  · have hmod : (a % 4 != 0) = true := by simp [ha]
    simp only [Bool.not_false, if_true, s.blk.at_calm t hc, Block.portRead, hmod, Block.restartEvent_eq]
    exact ⟨rfl, rfl, rfl, rfl⟩

/-- A word of FLT_CFG: EN, REACT, and PAR that makes its parity even (R382). -/
def fltWord (en : Bool) (react : BitVec 3) : Word :=
  let w := (if en then 0x100#32 else 0#32) ||| react.setWidth 32
  if parity w then w ||| 0x80000000#32 else w

theorem parity_fltWord : ∀ (en : Bool) (react : BitVec 3), parity (fltWord en react) = false := by decide +kernel

theorem get_en_fltWord : ∀ (en : Bool) (react : BitVec 3), (Fld.get FLT_CFG_EN (fltWord en react) != 0) = en := by decide +kernel

theorem get_react_fltWord : ∀ (en : Bool) (react : BitVec 3), Fld.get FLT_CFG_REACT (fltWord en react) = react.toNat := by decide +kernel

theorem and_en_mask (w : Word) : w &&& 0x100#32 = if w.getLsbD 8 then 0x100#32 else 0#32 :=
  BitVec.and_twoPow w 8

theorem and_react_mask (w : Word) : w &&& 7#32 = (w.setWidth 3).setWidth 32 := by
  apply BitVec.eq_of_toNat_eq
  have h7 : w.toNat &&& 7 = w.toNat % 8 := Nat.and_two_pow_sub_one_eq_mod w.toNat 3
  simp [h7]
  omega

theorem fltCfg_aligned (src : Nat) : (FLT_CFG_EN.base + 4 * src) % 4 = 0 := by
  show (0x38100 + 4 * src) % 4 = 0
  omega

/-- A write of FLT_CFG[src] of a defined source stores EN and REACT, fixed where the source has them fixed (R382, R400, R407). -/
theorem Block.applyWord_fltCfg (b : Block) {src : Nat} (data : Word) (hlt : src < 128) (hsrc : isSource src = true) :
    b.applyWord (FLT_CFG_EN.base + 4 * src) data = b.setReg (FLT_CFG_EN.base + 4 * src)
      (fltWord (isClassS src || data.getLsbD 8) (if src = srcCOLL_PARITY then 4#3 else data.setWidth 3)) := by
  have hin : inArray FLT_CFG_EN.base 128 (FLT_CFG_EN.base + 4 * src) = true := by
    simp only [inArray, Bool.and_eq_true, decide_eq_true_eq]
    omega
  have hidx : (FLT_CFG_EN.base + 4 * src - FLT_CFG_EN.base) / 4 = src := by omega
  have hen : (if isClassS src then 0x100#32 else data &&& 0x100#32) =
      if isClassS src || data.getLsbD 8 then 0x100#32 else 0#32 := by
    rw [and_en_mask]
    cases isClassS src <;> simp
  have hreact : (if src = srcCOLL_PARITY then 4#32 else data &&& 7#32) =
      (if src = srcCOLL_PARITY then 4#3 else data.setWidth 3).setWidth 32 := by
    rw [and_react_mask]
    split <;> rfl
  unfold Block.applyWord
  rw [if_pos hin]
  unfold Block.fltCfgWrite
  simp only [hidx, hsrc, Bool.not_true, Bool.false_eq_true, if_false, hen, hreact]
  rfl

theorem Block.applyWord_clkGate (b : Block) (data : Word) :
    b.applyWord CLK_GATE_FIO.base data = b.storeWritable CLK_GATE_FIO.base (data ||| forcedGates) := by
  simp [Block.applyWord, inArray]

theorem findReg_clkGate : findReg CLK_GATE_FIO.base = some def_CLK_GATE := rfl

/-- The enables forced to 1 are writable, so that they stand in the word stored (R346). -/
theorem forcedGates_kept (old data : Word) :
    ((old &&& ~~~(def_CLK_GATE.rw ||| def_CLK_GATE.rws)) ||| ((data ||| forcedGates) &&& (def_CLK_GATE.rw ||| def_CLK_GATE.rws))) &&&
      forcedGates = forcedGates := by
  have hin : forcedGates &&& (def_CLK_GATE.rw ||| def_CLK_GATE.rws) = forcedGates := by decide
  generalize def_CLK_GATE.rw ||| def_CLK_GATE.rws = m at hin ⊢
  generalize forcedGates = f at hin ⊢
  ext i hi
  have h := congrArg (·.getLsbD i) hin
  simp only [BitVec.getLsbD_and] at h
  simp only [← BitVec.getLsbD_eq_getElem, BitVec.getLsbD_and, BitVec.getLsbD_or]
  cases hf : f.getLsbD i <;> simp_all

theorem guardedRegisterWrites : Claims.GuardedRegisterWrites := by
  intro s t data hc
  refine ⟨fun src hlt hsrc hp => completes_hostWrite s t _ data _ hc hp (fltCfg_aligned src) ?_,
    fun hp => completes_hostWrite s t _ data _ hc hp (by decide) ?_⟩
  · rw [Block.applyWord_fltCfg _ data hlt hsrc]
    refine ⟨?_, ?_, ?_, s.blk.portOnly_setReg .., s.blk.regsKept_port_setReg t _ data _⟩
    · rw [Block.reg_setReg_same, parity_fltWord]
    · rw [Block.bit, Block.fld, Block.reg_setReg_same, get_en_fltWord]
    · rw [Block.fld, Block.reg_setReg_same, get_react_fltWord]
      split
      · rfl
      · simp
  · rw [Block.applyWord_clkGate, Block.storeWritable_of_findReg _ findReg_clkGate]
    refine ⟨?_, s.blk.portOnly_setReg .., s.blk.regsKept_port_setReg t _ data _⟩
    rw [Block.reg_setReg_same]
    exact forcedGates_kept _ data

/-- Settles O8: each write by the effect of its word on a block that has only seen the transfer, each read by its latch. -/
theorem registerWrites : Obligations.RegisterWrites := ⟨plainRegisterWrite, plainRegisterRead, guardedRegisterWrites⟩

end Sys2Proof.Machine
end

section
/-! PROOFS. The end of a load: what an acceptance writes after the ring configuration leaves the registers below the engine's alone, so
that a ring configuration whose register writes name IMG_STATUS decides what an acceptance leaves there (R414, R417, R468). -/

namespace Sys2Proof.Machine

@[simp] theorem Block.reg_bypassCheck (b : Block) (a : Nat) : b.bypassCheck.reg a = b.reg a := by
  unfold Block.bypassCheck
  split
  · rfl
  · split
    · rfl
    · split
      · rfl
      · rfl

@[simp] theorem Block.reg_loadChains (b : Block) (a : Nat) : b.loadChains.reg a = b.reg a := by
  unfold Block.loadChains
  split
  · rfl
  · rfl

theorem Block.reg_notePend (b : Block) {a : Nat} (ha : a < 0x10000) : b.notePend.reg a = b.reg a := by
  have hne : a ≠ 0x34000 + 4 * 0 := by omega
  unfold Block.notePend
  split
  · exact b.reg_put_other ADC_STATUS_PHTRIG_PEND _ 0 hne
  · rfl

theorem Block.reg_each {a : Nat} (f : Block → Nat → Block) (h : ∀ b k, (f b k).reg a = b.reg a) (ks : List Nat) (b : Block) :
    (b.each ks f).reg a = b.reg a :=
  Block.each_keeps (fun c => c.reg a) f h ks b

theorem Block.reg_sendTriggers (b : Block) {a : Nat} (ha : a < 0x10000) : b.sendTriggers.reg a = b.reg a := by
  unfold Block.sendTriggers
  rw [Block.reg_notePend _ ha, Block.reg_each]
  intro c p
  rw [Block.reg_modP]

theorem Block.reg_setPmbus (b : Block) (fast : Bool) (devs : List Nat) (start : List PmbWrite) {a : Nat} (ha : a < 0x10000) :
    (b.setPmbus fast devs start).reg a = b.reg a := by
  have hdev : ∀ (c : Block) (u v k : Nat), ((c.put PMB_DEV_PRESENT u k).put PMB_DEV_ADDR v k).reg a = c.reg a := fun c u v k => by
    have hne : a ≠ 0x3E040 + 4 * k := by omega
    rw [Block.reg_put_other _ PMB_DEV_ADDR v k hne, Block.reg_put_other _ PMB_DEV_PRESENT u k hne]
  have hdevices : a ≠ 0x3E008 + 4 * 0 := by omega
  unfold Block.setPmbus
  rw [Block.reg_modImg, Block.reg_each _ (fun c k => hdev c _ _ k), Block.reg_put_other _ PMB_STATUS_DEVICES _ 0 hdevices]

/-- An acceptance after the ring configuration, where the limits write no register. -/
def Block.acceptTail (b : Block) (g : Staged) : Block :=
  let b := ((b.setPmbus g.fast g.devs g.start).limitWrites []).sendTriggers.loadChains
  let b := (b.put ENG_STATUS_DET (if g.det then 1 else 0)).put ENG_CYCLES_STATIC b.eng.static
  let b := b.modRed (fun r => { r with counters := [], frameAt := b.now, updAt := b.now, goodFrame := false, held := true, frameB := none })
  ({ b with flt := { b.flt with step := if b.flt.step = 3 then 4 else b.flt.step } } : Block).bypassCheck

theorem Block.accept_eq_acceptTail (b : Block) (hw : b.img.staged.writes = []) :
    b.accept = ((((b.endLoad.modImg (fun i => { i with stage := 0, accepted := true, margin := b.img.staged.margin })).applyWear.calibrate
      true).setGroups b.img.staged.groups).setRing b.img.staged.ring).acceptTail b.img.staged := by
  unfold Block.accept
  dsimp only
  rw [hw]
  rfl

theorem Block.reg_acceptTail (b : Block) (g : Staged) {a : Nat} (ha : a < 0x10000) : (b.acceptTail g).reg a = b.reg a := by
  have hstatic : a ≠ 0x10018 + 4 * 0 := by omega
  have hdet : a ≠ 0x10000 + 4 * 0 := by omega
  have hflt : ∀ (c : Block) (x : Flt), ({ c with flt := x } : Block).reg a = c.reg a := fun _ _ => rfl
  have hlimits : ∀ c : Block, (c.limitWrites []).reg a = c.reg a := fun _ => rfl
  unfold Block.acceptTail
  dsimp only
  rw [Block.reg_bypassCheck, hflt, Block.reg_modRed, Block.reg_put_other _ ENG_CYCLES_STATIC _ 0 hstatic,
    Block.reg_put_other _ ENG_STATUS_DET _ 0 hdet, Block.reg_loadChains, Block.reg_sendTriggers _ ha, hlimits,
    Block.reg_setPmbus _ _ _ _ ha]

/-- A ring configuration that writes 0 to IMG_STATUS leaves 0 there. -/
theorem Block.reg_setRing_imgStatus (b : Block) (fl mx fr : List Nat) :
    (b.setRing (some { writes := [(IMG_STATUS_ERR.base, 0)], floors := fl, maxes := mx, freqs := fr })).reg IMG_STATUS_ERR.base = 0 := by
  unfold Block.setRing
  simp only [List.foldl_cons, List.foldl_nil, Block.reg_modHoop]
  rw [Block.reg_put_other _ HOOP_STATUS_ROLE _ 0 (by decide), Block.reg_setReg_same]
  simp

/-- An acceptance with that ring configuration, and no limits writes, leaves IMG_STATUS at 0. -/
theorem Block.reg_accept_imgStatus (b : Block) (fl mx fr : List Nat) (hw : b.img.staged.writes = [])
    (hr : b.img.staged.ring = some { writes := [(IMG_STATUS_ERR.base, 0)], floors := fl, maxes := mx, freqs := fr }) :
    b.accept.reg IMG_STATUS_ERR.base = 0 := by
  rw [b.accept_eq_acceptTail hw, Block.reg_acceptTail _ _ (by decide), hr, Block.reg_setRing_imgStatus]

/-- With a section that failed, DIGEST_READY on a trusted pin ends in an acceptance of what is staged
(R416, R417). -/
theorem Block.digestReady_trusted (b : Block) (a : Nat) (hs : b.img.stage = 2) (hp : b.img.allPassed = false) :
    ∃ c : Block, c.img.staged = b.img.staged ∧ (b.digestReady true).reg a = c.accept.reg a := by
  refine ⟨({ (b.put IMG_STATUS_DIGEST_READY 1).put IMG_STATUS_DIGEST_OK (if b.img.digestOk then 1 else 0) with
    trustedPin := true } : Block).modImg (fun i => { i with digestAt := b.now }), rfl, ?_⟩
  unfold Block.digestReady
  cases Config.trustReq <;> simp [hs, hp]

/-- A load whose digest is being formed, with a staged ring configuration that names IMG_STATUS. -/
def ringOverStatus : State :=
  { blk := { img := { stage := 2, staged := {
      ring := some { writes := [(IMG_STATUS_ERR.base, 0)], floors := [], maxes := [], freqs := [] } } } } }

/-- The acceptance at DIGEST_READY then leaves IMG_STATUS at 0, with DIGEST_READY clear. -/
theorem digestReady_ringOverStatus : ((ringOverStatus.blk.setNow 0).digestReady true).reg IMG_STATUS_ERR.base = 0 := by
  obtain ⟨c, hc, hreg⟩ := (ringOverStatus.blk.setNow 0).digestReady_trusted IMG_STATUS_ERR.base rfl rfl
  rw [hreg]
  exact c.reg_accept_imgStatus [] [] [] (by rw [hc]; rfl) (by rw [hc]; rfl)

/-- Refutes O51: `LoadEnds` bounds the register writes that the limits section has staged, and not those of the staged ring
configuration. In `ringOverStatus`, which no load reaches since `ringCfg` names registers of the ring alone, the acceptance writes 0 to
IMG_STATUS after DIGEST_READY was set there. -/
theorem not_imageLoad : ¬ Obligations.ImageLoad := by
  rintro ⟨-, hends⟩
  have hcalm : ringOverStatus.blk.Calm := by decide
  obtain ⟨hdigest, -⟩ := hends ringOverStatus 0 hcalm rfl rfl
  obtain ⟨-, htrusted, -⟩ := hdigest rfl
  obtain ⟨t, hexec, -, -, hready, -⟩ := htrusted (Or.inl rfl)
  have hrun : exec (.digestReady 0 true) ringOverStatus = ringOverStatus.run (fun b => (b.at 0).digestReady true) := rfl
  have hblk : t.blk = (ringOverStatus.blk.setNow 0).digestReady true := by
    rw [hrun, State.run, Host.Outcome.next.injEq] at hexec
    rw [← hexec, ← Block.at_calm _ _ hcalm]
  have hzero : t.blk.fld IMG_STATUS_DIGEST_READY = 0 := by
    rw [hblk, Block.fld]
    exact congrArg (Fld.get IMG_STATUS_DIGEST_READY) digestReady_ringOverStatus
  rw [hzero] at hready
  exact absurd hready (by decide)

end Sys2Proof.Machine
end
